-- ==== Sys2Proof/Word.lean ====
section
/-! DEFINITION. The word types of the machine (spec/00_scope.md R6, R7; spec/30_encoding.md R92). -/

namespace Sys2Proof

/-- A byte: a memory location, a general register, a timer, the operand group `KK` (R6, R92). -/
abbrev Byte := BitVec 8

/-- A 16-bit word: the instruction word, `pc`, `I`, a stack entry (R6; widths D7, log 7). -/
abbrev Word := BitVec 16

/-- A register number, the operand groups `X` and `Y`; also a key number (R92, R228). -/
abbrev Reg := BitVec 4

/-- The operand group `N`, a row count 0 to 15 (R92, R95). -/
abbrev Nibble := BitVec 4

/-- The operand group `NNN`, an unsigned 12-bit value (R92, R95). -/
abbrev Addr12 := BitVec 12

end Sys2Proof
end

