-- ==== Sys2Proof/Syntax.lean ====
section
/-! DEFINITION. The 34 instructions of spec/opcode_table.json (spec/30_encoding.md R96), one constructor per row, in the
table's order. The fallback for every other word is no row and so no constructor (R98, R124; log 14). -/

namespace Sys2Proof

/-- One instruction with its operand groups (R92, R94). -/
inductive Instr where
  /-- `00E0` clear-screen (R190). -/
  | clearScreen
  /-- `00EE` return (R140). -/
  | ret
  /-- `1NNN` jump absolute (R141). -/
  | jump (nnn : Addr12)
  /-- `2NNN` call (R142). -/
  | call (nnn : Addr12)
  /-- `3XKK` skip-if-equal-immediate (R143). -/
  | skipEqImm (x : Reg) (kk : Byte)
  /-- `4XKK` skip-if-not-equal-immediate (R144). -/
  | skipNeImm (x : Reg) (kk : Byte)
  /-- `5XY0` skip-if-registers-equal (R145). -/
  | skipEqReg (x y : Reg)
  /-- `6XKK` load-immediate (R160). -/
  | loadImm (x : Reg) (kk : Byte)
  /-- `7XKK` add-immediate (R161). -/
  | addImm (x : Reg) (kk : Byte)
  /-- `8XY0` move (R162). -/
  | move (x y : Reg)
  /-- `8XY1` or (R163). -/
  | orReg (x y : Reg)
  /-- `8XY2` and (R164). -/
  | andReg (x y : Reg)
  /-- `8XY3` xor (R165). -/
  | xorReg (x y : Reg)
  /-- `8XY4` add registers (R166). -/
  | addReg (x y : Reg)
  /-- `8XY5` sub registers (R167). -/
  | subReg (x y : Reg)
  /-- `8XY6` shift-right; `Y` is carried and ignored (R94, R168). -/
  | shiftRight (x y : Reg)
  /-- `8XY7` sub-reverse (R169). -/
  | subReverse (x y : Reg)
  /-- `8XYE` shift-left; `Y` is carried and ignored (R94, R170). -/
  | shiftLeft (x y : Reg)
  /-- `9XY0` skip-if-registers-not-equal (R146). -/
  | skipNeReg (x y : Reg)
  /-- `ANNN` load-index-immediate (R180). -/
  | loadIndexImm (nnn : Addr12)
  /-- `BNNN` jump-with-offset (R148). -/
  | jumpOffset (nnn : Addr12)
  /-- `CXKK` random-masked (R171). -/
  | randomMasked (x : Reg) (kk : Byte)
  /-- `DXYN` draw-sprite (R191). -/
  | drawSprite (x y : Reg) (n : Nibble)
  /-- `EX9E` skip-if-key-pressed (R200). -/
  | skipKeyPressed (x : Reg)
  /-- `EXA1` skip-if-key-not-pressed (R201). -/
  | skipKeyNotPressed (x : Reg)
  /-- `FX07` read-delay-timer (R202). -/
  | readDelayTimer (x : Reg)
  /-- `FX0A` wait-for-key (R203). -/
  | waitForKey (x : Reg)
  /-- `FX15` set-delay-timer (R204). -/
  | setDelayTimer (x : Reg)
  /-- `FX18` set-sound-timer (R205). -/
  | setSoundTimer (x : Reg)
  /-- `FX1E` add-to-index (R181). -/
  | addToIndex (x : Reg)
  /-- `FX29` load-font-sprite-address (R182). -/
  | loadFontAddr (x : Reg)
  /-- `FX33` store-bcd (R183). -/
  | storeBcd (x : Reg)
  /-- `FX55` register-dump (R184). -/
  | regDump (x : Reg)
  /-- `FX65` register-load (R185). -/
  | regLoad (x : Reg)
  deriving DecidableEq, Repr

end Sys2Proof
end

