-- ==== Sys2Proof/WellFormed.lean ====
section
/-! DEFINITION. Well-formedness of operands: each operand group fits its field (spec/30_encoding.md R92, R95). The types of
`Instr`'s arguments already carry the widths, so every term of `Instr` is well-formed; the checks are stated on the
operand groups as plain numbers, where a value can be out of range. -/

namespace Sys2Proof

/-- The five operand groups of a word as numbers (R92). A group an instruction does not use is 0. -/
structure Fields where
  nnn : Nat := 0
  kk : Nat := 0
  x : Nat := 0
  y : Nat := 0
  n : Nat := 0
  deriving DecidableEq, Repr

/-- Each operand group fits its field: `NNN` 12 bits, `KK` 8 bits, `X`, `Y` and `N` 4 bits each (R92). -/
def Fields.wf (f : Fields) : Bool :=
  decide (f.nnn < 4096) && decide (f.kk < 256) && decide (f.x < 16) && decide (f.y < 16) && decide (f.n < 16)

/-- The operand groups of an instruction, by its format (R94). -/
def Instr.fields : Instr → Fields
  | .clearScreen => { }
  | .ret => { }
  | .jump nnn => { nnn := nnn.toNat }
  | .call nnn => { nnn := nnn.toNat }
  | .skipEqImm x kk => { x := x.toNat, kk := kk.toNat }
  | .skipNeImm x kk => { x := x.toNat, kk := kk.toNat }
  | .skipEqReg x y => { x := x.toNat, y := y.toNat }
  | .loadImm x kk => { x := x.toNat, kk := kk.toNat }
  | .addImm x kk => { x := x.toNat, kk := kk.toNat }
  | .move x y => { x := x.toNat, y := y.toNat }
  | .orReg x y => { x := x.toNat, y := y.toNat }
  | .andReg x y => { x := x.toNat, y := y.toNat }
  | .xorReg x y => { x := x.toNat, y := y.toNat }
  | .addReg x y => { x := x.toNat, y := y.toNat }
  | .subReg x y => { x := x.toNat, y := y.toNat }
  | .shiftRight x y => { x := x.toNat, y := y.toNat }
  | .subReverse x y => { x := x.toNat, y := y.toNat }
  | .shiftLeft x y => { x := x.toNat, y := y.toNat }
  | .skipNeReg x y => { x := x.toNat, y := y.toNat }
  | .loadIndexImm nnn => { nnn := nnn.toNat }
  | .jumpOffset nnn => { nnn := nnn.toNat }
  | .randomMasked x kk => { x := x.toNat, kk := kk.toNat }
  | .drawSprite x y n => { x := x.toNat, y := y.toNat, n := n.toNat }
  | .skipKeyPressed x => { x := x.toNat }
  | .skipKeyNotPressed x => { x := x.toNat }
  | .readDelayTimer x => { x := x.toNat }
  | .waitForKey x => { x := x.toNat }
  | .setDelayTimer x => { x := x.toNat }
  | .setSoundTimer x => { x := x.toNat }
  | .addToIndex x => { x := x.toNat }
  | .loadFontAddr x => { x := x.toNat }
  | .storeBcd x => { x := x.toNat }
  | .regDump x => { x := x.toNat }
  | .regLoad x => { x := x.toNat }

/-- An instruction is well-formed when its operand groups are. -/
def Instr.wf (i : Instr) : Bool := i.fields.wf

end Sys2Proof
end

