-- ==== Sys2Proof/Decode.lean ====
section
/-! DEFINITION. The decoder, total on any bytes, and the encoder (spec/30_encoding.md R90 to R99). The bit patterns are the
spec's decisions D1 and D2 (log 5). -/

namespace Sys2Proof

/-- Why the decoder gives no instruction. -/
inductive DecodeError where
  /-- Fewer than the two bytes of an instruction (R90). -/
  | truncated
  /-- The word selects no row of the opcode map; the step runs the fallback (R98, R123). -/
  | unknown (w : Word)
  deriving DecidableEq, Repr

/-- Byte order of an instruction: the first byte is bits 15 to 8 (R64, R90). -/
def wordOfBytes (hi lo : Byte) : Word := hi ++ lo

/-- The high byte of a word, the first in memory (R64). -/
def hiByte (w : Word) : Byte := w.extractLsb' 8 8

/-- The low byte of a word, the second in memory (R64). -/
def loByte (w : Word) : Byte := w.extractLsb' 0 8

/-- Nibble `n0`, bits 15 to 12 (R91). -/
def nibble0 (w : Word) : BitVec 4 := w.extractLsb' 12 4

/-- Operand group `X`, bits 11 to 8 (R92). -/
def fieldX (w : Word) : Reg := w.extractLsb' 8 4

/-- Operand group `Y`, bits 7 to 4 (R92). -/
def fieldY (w : Word) : Reg := w.extractLsb' 4 4

/-- Operand group `N`, bits 3 to 0 (R92). -/
def fieldN (w : Word) : Nibble := w.extractLsb' 0 4

/-- Operand group `KK`, bits 7 to 0 (R92). -/
def fieldKK (w : Word) : Byte := w.extractLsb' 0 8

/-- Operand group `NNN`, bits 11 to 0 (R92). -/
def fieldNNN (w : Word) : Addr12 := w.extractLsb' 0 12

/-- A row of the opcode map: a word `w` selects it when `w and mask = pattern` (R96). -/
structure OpRow where
  mnemonic : String
  mask : Word
  pattern : Word
  build : Word → Instr

/-- The row a word selects: R96's test. -/
def OpRow.selects (r : OpRow) (w : Word) : Bool := w &&& r.mask == r.pattern

/-- Rows 1 to 9 of R96. -/
def rowsLow : List OpRow :=
  [⟨"clear-screen", 0xFFFF, 0x00E0, fun _ => .clearScreen⟩,
   ⟨"return", 0xFFFF, 0x00EE, fun _ => .ret⟩,
   ⟨"jump", 0xF000, 0x1000, fun w => .jump (fieldNNN w)⟩,
   ⟨"call", 0xF000, 0x2000, fun w => .call (fieldNNN w)⟩,
   ⟨"skip-if-equal-immediate", 0xF000, 0x3000, fun w => .skipEqImm (fieldX w) (fieldKK w)⟩,
   ⟨"skip-if-not-equal-immediate", 0xF000, 0x4000, fun w => .skipNeImm (fieldX w) (fieldKK w)⟩,
   ⟨"skip-if-registers-equal", 0xF00F, 0x5000, fun w => .skipEqReg (fieldX w) (fieldY w)⟩,
   ⟨"load-immediate", 0xF000, 0x6000, fun w => .loadImm (fieldX w) (fieldKK w)⟩,
   ⟨"add-immediate", 0xF000, 0x7000, fun w => .addImm (fieldX w) (fieldKK w)⟩]

/-- Rows 10 to 19 of R96. -/
def rowsRegister : List OpRow :=
  [⟨"move", 0xF00F, 0x8000, fun w => .move (fieldX w) (fieldY w)⟩,
   ⟨"or", 0xF00F, 0x8001, fun w => .orReg (fieldX w) (fieldY w)⟩,
   ⟨"and", 0xF00F, 0x8002, fun w => .andReg (fieldX w) (fieldY w)⟩,
   ⟨"xor", 0xF00F, 0x8003, fun w => .xorReg (fieldX w) (fieldY w)⟩,
   ⟨"add", 0xF00F, 0x8004, fun w => .addReg (fieldX w) (fieldY w)⟩,
   ⟨"sub", 0xF00F, 0x8005, fun w => .subReg (fieldX w) (fieldY w)⟩,
   ⟨"shift-right", 0xF00F, 0x8006, fun w => .shiftRight (fieldX w) (fieldY w)⟩,
   ⟨"sub-reverse", 0xF00F, 0x8007, fun w => .subReverse (fieldX w) (fieldY w)⟩,
   ⟨"shift-left", 0xF00F, 0x800E, fun w => .shiftLeft (fieldX w) (fieldY w)⟩,
   ⟨"skip-if-registers-not-equal", 0xF00F, 0x9000, fun w => .skipNeReg (fieldX w) (fieldY w)⟩]

/-- Rows 20 to 25 of R96. -/
def rowsHigh : List OpRow :=
  [⟨"load-index-immediate", 0xF000, 0xA000, fun w => .loadIndexImm (fieldNNN w)⟩,
   ⟨"jump-with-offset", 0xF000, 0xB000, fun w => .jumpOffset (fieldNNN w)⟩,
   ⟨"random-masked", 0xF000, 0xC000, fun w => .randomMasked (fieldX w) (fieldKK w)⟩,
   ⟨"draw-sprite", 0xF000, 0xD000, fun w => .drawSprite (fieldX w) (fieldY w) (fieldN w)⟩,
   ⟨"skip-if-key-pressed", 0xF0FF, 0xE09E, fun w => .skipKeyPressed (fieldX w)⟩,
   ⟨"skip-if-key-not-pressed", 0xF0FF, 0xE0A1, fun w => .skipKeyNotPressed (fieldX w)⟩]

/-- Rows 26 to 34 of R96. -/
def rowsUnary : List OpRow :=
  [⟨"read-delay-timer", 0xF0FF, 0xF007, fun w => .readDelayTimer (fieldX w)⟩,
   ⟨"wait-for-key", 0xF0FF, 0xF00A, fun w => .waitForKey (fieldX w)⟩,
   ⟨"set-delay-timer", 0xF0FF, 0xF015, fun w => .setDelayTimer (fieldX w)⟩,
   ⟨"set-sound-timer", 0xF0FF, 0xF018, fun w => .setSoundTimer (fieldX w)⟩,
   ⟨"add-to-index", 0xF0FF, 0xF01E, fun w => .addToIndex (fieldX w)⟩,
   ⟨"load-font-sprite-address", 0xF0FF, 0xF029, fun w => .loadFontAddr (fieldX w)⟩,
   ⟨"store-bcd", 0xF0FF, 0xF033, fun w => .storeBcd (fieldX w)⟩,
   ⟨"register-dump", 0xF0FF, 0xF055, fun w => .regDump (fieldX w)⟩,
   ⟨"register-load", 0xF0FF, 0xF065, fun w => .regLoad (fieldX w)⟩]

/-- `OPCODE_MAP`: the 34 rows in the table's order (R96; D1, D2, log 5). -/
def opcodeMap : List OpRow := rowsLow ++ rowsRegister ++ rowsHigh ++ rowsUnary

/-- Dispatch on a word: the one row it selects, or refused by name (R123). -/
def decodeWord (w : Word) : Except DecodeError Instr :=
  match opcodeMap.find? (fun r => r.selects w) with
  | some r => .ok (r.build w)
  | none => .error (.unknown w)

/-- The decoder on bytes: the instruction and the bytes after it (R90, R123). -/
def decode : List Byte → Except DecodeError (Instr × List Byte)
  | hi :: lo :: rest =>
    match decodeWord (wordOfBytes hi lo) with
    | .ok i => .ok (i, rest)
    | .error e => .error e
  | [] => .error .truncated
  | [_] => .error .truncated

/-- Format `A`: `oNNN` (R94). -/
def formA (op : Word) (nnn : Addr12) : Word := op ||| nnn.setWidth 16

/-- Format `I`: `oXKK` (R94). -/
def formI (op : Word) (x : Reg) (kk : Byte) : Word := op ||| (x.setWidth 16 <<< 8) ||| kk.setWidth 16

/-- Format `R`: `oXYs`, `s` within `op` (R94). -/
def formR (op : Word) (x y : Reg) : Word := op ||| (x.setWidth 16 <<< 8) ||| (y.setWidth 16 <<< 4)

/-- Format `D`: `DXYN` (R94). -/
def formD (op : Word) (x y : Reg) (n : Nibble) : Word :=
  op ||| (x.setWidth 16 <<< 8) ||| (y.setWidth 16 <<< 4) ||| n.setWidth 16

/-- Format `U`: `oXss`, `ss` within `op` (R94). -/
def formU (op : Word) (x : Reg) : Word := op ||| (x.setWidth 16 <<< 8)

/-- The encoder: the word of an instruction, from the patterns of R96. -/
def encode : Instr → Word
  | .clearScreen => 0x00E0
  | .ret => 0x00EE
  | .jump nnn => formA 0x1000 nnn
  | .call nnn => formA 0x2000 nnn
  | .skipEqImm x kk => formI 0x3000 x kk
  | .skipNeImm x kk => formI 0x4000 x kk
  | .skipEqReg x y => formR 0x5000 x y
  | .loadImm x kk => formI 0x6000 x kk
  | .addImm x kk => formI 0x7000 x kk
  | .move x y => formR 0x8000 x y
  | .orReg x y => formR 0x8001 x y
  | .andReg x y => formR 0x8002 x y
  | .xorReg x y => formR 0x8003 x y
  | .addReg x y => formR 0x8004 x y
  | .subReg x y => formR 0x8005 x y
  | .shiftRight x y => formR 0x8006 x y
  | .subReverse x y => formR 0x8007 x y
  | .shiftLeft x y => formR 0x800E x y
  | .skipNeReg x y => formR 0x9000 x y
  | .loadIndexImm nnn => formA 0xA000 nnn
  | .jumpOffset nnn => formA 0xB000 nnn
  | .randomMasked x kk => formI 0xC000 x kk
  | .drawSprite x y n => formD 0xD000 x y n
  | .skipKeyPressed x => formU 0xE09E x
  | .skipKeyNotPressed x => formU 0xE0A1 x
  | .readDelayTimer x => formU 0xF007 x
  | .waitForKey x => formU 0xF00A x
  | .setDelayTimer x => formU 0xF015 x
  | .setSoundTimer x => formU 0xF018 x
  | .addToIndex x => formU 0xF01E x
  | .loadFontAddr x => formU 0xF029 x
  | .storeBcd x => formU 0xF033 x
  | .regDump x => formU 0xF055 x
  | .regLoad x => formU 0xF065 x

/-- The two bytes of an instruction in memory order (R64, R90). -/
def encodeBytes (i : Instr) : List Byte := [hiByte (encode i), loByte (encode i)]

/-- The word of a table row's bits: bit 0 is the least significant bit of the (only) word; the bits above `nbits` are 0. -/
def tableWord (nbits w : Nat) : Word := BitVec.ofNat 16 (w % 2 ^ nbits)

/-- The instruction the decoder reads from a table word laid out as the hardware stores it. -/
def decodeTableWord (nbits w : Nat) : Option Instr :=
  match decode [hiByte (tableWord nbits w), loByte (tableWord nbits w)] with
  | .ok (i, _) => some i
  | .error _ => none

end Sys2Proof
end

