-- ==== Sys2Proof/Config.lean ====
section
/-! DEFINITION. The parameters of the machine (spec/00_scope.md R6) and the free values of its two inputs
(spec/60_exceptions.md R228, R229). -/

namespace Sys2Proof.Config

open Sys2Proof

/-- `MEM_SIZE` (R6, R60). -/
abbrev memSize : Nat := 4096

/-- `PROG_BASE`: where a ROM is placed and where execution starts (R6, R227, R240). -/
abbrev progBase : Nat := 0x200

/-- `ROM_MAX` = `MEM_SIZE` - `PROG_BASE` (R6). -/
abbrev romMax : Nat := 3584

/-- `STACK_DEPTH` (R6, R34). -/
abbrev stackDepth : Nat := 16

/-- The default of `ADDI_FLAG_THRESHOLD`, an OPEN parameter (R6, R181). DESIGN CHOICE (the spec's D9): log 3. -/
abbrev addiThresholdDefault : Nat := 0x0F00

/-- Glyphs 0 to 7 of the default of `FONT`. PRESUMED (the spec's D3): log 4. -/
def fontLow : List Byte :=
  [0xF0, 0x90, 0x90, 0x90, 0xF0,
   0x20, 0x60, 0x20, 0x20, 0x70,
   0xF0, 0x10, 0xF0, 0x80, 0xF0,
   0xF0, 0x10, 0xF0, 0x10, 0xF0,
   0x90, 0x90, 0xF0, 0x10, 0x10,
   0xF0, 0x80, 0xF0, 0x10, 0xF0,
   0xF0, 0x80, 0xF0, 0x90, 0xF0,
   0xF0, 0x10, 0x20, 0x40, 0x40]

/-- Glyphs 8 to F of the default of `FONT`. PRESUMED (the spec's D3): log 4. -/
def fontHigh : List Byte :=
  [0xF0, 0x90, 0xF0, 0x90, 0xF0,
   0xF0, 0x90, 0xF0, 0x10, 0xF0,
   0xF0, 0x90, 0xF0, 0x90, 0x90,
   0xE0, 0x90, 0xE0, 0x90, 0xE0,
   0xF0, 0x80, 0x80, 0x80, 0xF0,
   0xE0, 0x90, 0x90, 0x90, 0xE0,
   0xF0, 0x80, 0xF0, 0x80, 0xF0,
   0xF0, 0x80, 0xF0, 0x80, 0x80]

/-- A value of the parameter `FONT`: 16 glyphs of 5 bytes (R6, R72). -/
abbrev Font := Vector Byte 80

/-- The default of `FONT`, an OPEN parameter (R6, R72). PRESUMED (the spec's D3): log 4. -/
def fontDefault : Font := ⟨(fontLow ++ fontHigh).toArray, rfl⟩

/-- The `keys` input at the n-th step for which the driver's schedule names none: any 16-bit value (R228). No body,
so nothing can be proved of it. DESIGN CHOICE of form: log 2. -/
opaque freeKeys : Nat → BitVec 16

/-- The `rnd` input at the n-th step for which the driver's schedule names none: any byte (R229, U12). No body, so
nothing can be proved of it. DESIGN CHOICE of form: log 2. -/
opaque freeRnd : Nat → Byte

end Sys2Proof.Config
end

