-- ==== Sys2Proof/Machine/State.lean ====
section
/-! DEFINITION. The state of the machine (spec/10_state.md R20 to R50), its faults and refusals, and the state after reset
(R50, R240). -/

namespace Sys2Proof.Machine

open Sys2Proof

/-- The causes of a fault (spec/60_exceptions.md R210). A cause is TAKEN: the step that meets it answers a next state whose
fault latch records it (`State.takeFault`, R215). No step answers `Host.Outcome.fault` (log 1): the latch keeps, in
the state, what the spec says of a faulted machine. Safe: the machine stops as the spec says. -/
inductive Fault where
  /-- Raised by call when `sp` = 16 (R142). -/
  | stackOverflow
  /-- Raised by return when `sp` = 0 (R140). -/
  | stackUnderflow
  /-- Raised by the fetch of any step when `pc` > 4094; the lowest address out of range (R121). -/
  | fetchRange (addr : BitVec 17)
  /-- Raised by draw-sprite, store-bcd, register-dump and register-load when an accessed address is above 4095; the
  lowest such address (R66, R67). -/
  | dataRange (addr : BitVec 17)
  /-- Raised by add-to-index when the sum is above 65535; the sum (R181; D10, log 9). -/
  | indexRange (sum : BitVec 17)
  /-- Raised by the two key skips when the register value is above 15; the value (R200, R201; D13, log 8). -/
  | keyIndexRange (value : Byte)
  deriving DecidableEq, Repr

/-- Why the machine has no meaning for a request. -/
inductive Refusal where
  /-- An instruction without a meaning yet, by its mnemonic. Raised by no arm: every instruction has its meaning. Safe. -/
  | notModelled (mnemonic : String)
  /-- Raised by the load port outside the load phase, to which the spec gives no meaning (R227, R244; D25, log 12). No
  instruction and no step raises it. Safe. -/
  | loadNotPristine
  deriving DecidableEq, Repr

/-- What the fault latch records (R37): the 3-bit code, the `pc` of the faulting instruction, the 17-bit value. -/
structure FaultRecord where
  code : BitVec 3
  fpc : Word
  info : BitVec 17
  deriving DecidableEq, Repr

/-- The inputs of one step: bit `k` of `keys` is logical key `k`, `rnd` is the random byte (R228, R229). -/
structure Inputs where
  keys : BitVec 16
  rnd : Byte
  deriving DecidableEq, Repr

/-- `mem` as the list of the bytes that differ from the reset contents of the instance (`Memory.initial` of its `FONT`),
addresses strictly rising (R60; the form is `Memory.wf`). -/
abbrev Memory := List Host.Cell

/-- `fb`: 32 rows of 64 one-bit cells; bit `x` of row `y` is the cell `fb[y][x]` (R39; D5, log 6). -/
abbrev Framebuffer := Vector (BitVec 64) 32

/-- The machine: R20's list, whole, and five fields of the model's own (logs 2, 3, 4, 12). -/
structure State where
  /-- The 4096 bytes of memory (R60). -/
  mem : Memory
  /-- The general registers; `V[15]` is also the flag (R21, R22). -/
  v : Vector Byte 16
  /-- The index register `I` (R32). -/
  i : Word
  /-- The program counter (R25, R26). -/
  pc : Word
  /-- The call stack (R34). -/
  stack : Vector Word 16
  /-- The stack pointer: how many entries are in use, 0 to 16 (R33). -/
  sp : Fin 17
  /-- The delay timer (R35). -/
  dt : Byte
  /-- The sound timer (R35). -/
  st : Byte
  /-- The framebuffer (R39). -/
  fb : Framebuffer
  /-- The framebuffer-changed flag (R36). -/
  changed : Bool
  /-- The fault latch (R37). -/
  fault : Option FaultRecord
  /-- The model's own: the parameter `ADDI_FLAG_THRESHOLD` of this instance; nothing writes it (R181, log 3). -/
  addiThreshold : Nat
  /-- The model's own: the parameter `FONT` of this instance, what addresses 0 to 79 hold at reset; nothing writes it (R6, R72,
  log 4). -/
  font : Config.Font
  /-- The model's own: the inputs the driver presents at the coming steps, first first (R228, R229, log 2). -/
  inputs : List Inputs
  /-- The model's own: how many steps have taken a free input (log 2). -/
  draws : Nat
  /-- The model's own: the load phase of the boot sequence is open (R243, R244, log 12). -/
  loadOpen : Bool
  deriving DecidableEq, Repr

/-- The pristine state (R50, R240): memory as at reset, so nothing listed; `pc` = `I` = 0x200; everything else zero; no
fault. `font` and `addiThreshold` are the spec's defaults of its two OPEN parameters (D3, D9; logs 4, 3); the last three values are
the model's (logs 2, 12). -/
def State.reset : State where
  mem := []
  v := Vector.replicate 16 0
  i := 0x200
  pc := 0x200
  stack := Vector.replicate 16 0
  sp := 0
  dt := 0
  st := 0
  fb := Vector.replicate 32 0
  changed := false
  fault := none
  addiThreshold := Config.addiThresholdDefault
  font := Config.fontDefault
  inputs := []
  draws := 0
  loadOpen := true

end Sys2Proof.Machine
end

