-- ==== Sys2Proof/Machine/Ops.lean ====
section
/-! DEFINITION. The named operations over memory, registers, stack, framebuffer, inputs and timers; taking a fault
(spec/20_memory.md, spec/40_step_fetch_decode.md, spec/60_exceptions.md). -/

namespace Sys2Proof.Machine

open Sys2Proof

/-! ### Memory (R60 to R70) -/

/-- What an address holds at reset in an instance with this `FONT`, and so what an unlisted address reads as: the font, then
zero (R50, R72). -/
def Memory.initial (font : Config.Font) (a : Nat) : Byte := if h : a < 80 then font[a]'h else 0

/-- The byte at an address (R60). -/
def Memory.byte (font : Config.Font) : Memory → Nat → Byte
  | [], a => Memory.initial font a
  | (k, b) :: m, a => if a = k then b else Memory.byte font m a

/-- The byte `b` put at `a`, in canonical form: the reset contents are not listed. -/
def Memory.put (font : Config.Font) : Memory → Nat → Byte → Memory
  | [], a, b => if b = Memory.initial font a then [] else [(a, b)]
  | (k, c) :: m, a, b =>
    if a < k then
      if b = Memory.initial font a then (k, c) :: m else (a, b) :: (k, c) :: m
    else if a = k then
      if b = Memory.initial font a then m else (a, b) :: m
    else (k, c) :: Memory.put font m a b

/-- The canonical form from address `lo` on: addresses strictly rising, inside memory, no entry equal to the reset
contents. -/
def Memory.wfFrom (font : Config.Font) : Nat → Memory → Bool
  | _, [] => true
  | lo, (k, b) :: m =>
    decide (lo ≤ k) && decide (k < Config.memSize) && decide (b ≠ Memory.initial font k) && Memory.wfFrom font (k + 1) m

/-- The canonical form of memory. -/
def Memory.wf (font : Config.Font) (m : Memory) : Bool := Memory.wfFrom font 0 m

/-- The whole range of an access of `n` bytes at `a` lies in memory; an access of no byte always does (R66, R67, R191). -/
def Memory.inRange (a n : Nat) : Bool := n == 0 || decide (a + n ≤ Config.memSize)

/-- The bytes put at `a`, `a + 1`, ..., lowest address first, without a range check. -/
def Memory.putAll (font : Config.Font) : Memory → Nat → List Byte → Memory
  | m, _, [] => m
  | m, a, b :: bs => Memory.putAll font (Memory.put font m a b) (a + 1) bs

/-- `mem[a]` (R60). -/
def State.byte (s : State) (a : Nat) : Byte := s.mem.byte s.font a

/-- The memory of the state is in canonical form. -/
def State.memWf (s : State) : Bool := s.mem.wf s.font

/-- `[mem[a], mem[a + 1], ..., mem[a + n - 1]]`, lowest address first, without a range check (R65). -/
def State.bytes (s : State) (a n : Nat) : List Byte := (List.range n).map fun k => s.byte (a + k)

/-- `mem[a] <- bs[0]`, `mem[a + 1] <- bs[1]`, ..., lowest address first, without a range check (R65). -/
def State.putBytes (s : State) (a : Nat) (bs : List Byte) : State := { s with mem := s.mem.putAll s.font a bs }

/-- `MemRead(a, n)`: the bytes, or none when some address is out of range (R9, R66). -/
def State.memRead (s : State) (a n : Nat) : Option (List Byte) :=
  if Memory.inRange a n then some (s.bytes a n) else none

/-- `MemWrite(a, n, bs)`: the state after it, or none, nothing written, when some address is out of range (R9, R67). -/
def State.memWrite (s : State) (a : Nat) (bs : List Byte) : Option State :=
  if Memory.inRange a bs.length then some (s.putBytes a bs) else none

/-! ### Registers (R21 to R35) -/

/-- `V[x]` (R21). -/
def State.reg (s : State) (x : Reg) : Byte := s.v[x.toNat]'x.isLt

/-- `V[x] <- b` (R21). -/
def State.setReg (s : State) (x : Reg) (b : Byte) : State := { s with v := s.v.set x.toNat b x.isLt }

/-- `V[k] <- bs[0]`, `V[k + 1] <- bs[1]`, ... (R185). -/
def State.setRegs : State → Nat → List Byte → State
  | s, _, [] => s
  | s, k, b :: bs => State.setRegs (s.setReg (BitVec.ofNat 4 k) b) (k + 1) bs

/-- `[V[0], V[1], ..., V[n - 1]]` (R184). -/
def State.regs (s : State) (n : Nat) : List Byte := (List.range n).map fun k => s.reg (BitVec.ofNat 4 k)

/-- `I <- a` (R32). -/
def State.setIndex (s : State) (a : Word) : State := { s with i := a }

/-- `pc <- a` (R9, R25). -/
def State.setPc (s : State) (a : Word) : State := { s with pc := a }

/-- `pc <- pc + 2`: past a plain instruction (R25). -/
def State.advance (s : State) : State := s.setPc (s.pc + 2)

/-- `pc <- pc + 4` when the condition holds, else `pc + 2` (R25, R143). -/
def State.skipIf (s : State) (c : Bool) : State := s.setPc (if c then s.pc + 4 else s.pc + 2)

/-- `dt <- b` (R35). -/
def State.setDelay (s : State) (b : Byte) : State := { s with dt := b }

/-- `st <- b` (R35). -/
def State.setSound (s : State) (b : Byte) : State := { s with st := b }

/-- `changed <- c` (R36). -/
def State.setChanged (s : State) (c : Bool) : State := { s with changed := c }

/-! ### The call stack (R33, R34) -/

/-- `stack[sp] <- a; sp <- sp + 1`, or none when the stack is full (R142). -/
def State.push (s : State) (a : Word) : Option State :=
  if h : s.sp.val < Config.stackDepth then
    some { s with stack := s.stack.set s.sp.val a h, sp := ⟨s.sp.val + 1, Nat.succ_lt_succ h⟩ }
  else none

/-- `sp <- sp - 1`, and the entry at the new `sp`, which stays in the array; or none when the stack is empty (R140, R34). -/
def State.pop (s : State) : Option (State × Word) :=
  if h : 0 < s.sp.val then
    some ({ s with sp := ⟨s.sp.val - 1, Nat.lt_of_le_of_lt (Nat.sub_le _ _) s.sp.isLt⟩ },
      s.stack[s.sp.val - 1]'(Nat.lt_of_lt_of_le (Nat.sub_lt h Nat.one_pos) (Nat.le_of_lt_succ s.sp.isLt)))
  else none

/-! ### The framebuffer (R39, R191) -/

/-- The cell `fb[y][x]` (R39). -/
def Framebuffer.cell (fb : Framebuffer) (y : Fin 32) (x : Fin 64) : Bool := (fb[y.val]'y.isLt).getLsbD x.val

/-- `fb[y][x] <- fb[y][x] xor 1` (R191). -/
def Framebuffer.toggle (fb : Framebuffer) (y : Fin 32) (x : Fin 64) : Framebuffer :=
  fb.set y.val ((fb[y.val]'y.isLt) ^^^ BitVec.twoPow 64 x.val) y.isLt

/-- The framebuffer with every cell 0 (R190). -/
def Framebuffer.blank : Framebuffer := Vector.replicate 32 0

/-- The column of a pixel, wrapped (R191 point b; D6, log 6). -/
def pixelColumn (vx : Byte) (c : Nat) : Fin 64 := Fin.ofNat 64 (vx.toNat + c)

/-- The row of a pixel, wrapped (R191 point b; D6, log 6). -/
def pixelRow (vy : Byte) (r : Nat) : Fin 32 := Fin.ofNat 32 (vy.toNat + r)

/-- One pixel of a sprite: a 1 bit toggles its cell and records a hit when the cell was 1 (R191). -/
def drawPixel (vx vy : Byte) (r c : Nat) (bit : Bool) (acc : Framebuffer × Bool) : Framebuffer × Bool :=
  if bit then
    (acc.1.toggle (pixelRow vy r) (pixelColumn vx c), acc.2 || acc.1.cell (pixelRow vy r) (pixelColumn vx c))
  else acc

/-- One row of a sprite; bit 7 is column offset 0 (R191 point a; D4, log 6). -/
def drawRow (vx vy : Byte) (r : Nat) (row : Byte) (acc : Framebuffer × Bool) : Framebuffer × Bool :=
  (List.range 8).foldl (fun a c => drawPixel vx vy r c (row.getLsbD (7 - c)) a) acc

/-- The rows of a sprite from row offset `r` down (R191). -/
def drawRows (vx vy : Byte) : Nat → List Byte → Framebuffer × Bool → Framebuffer × Bool
  | _, [], acc => acc
  | r, row :: rows, acc => drawRows vx vy (r + 1) rows (drawRow vx vy r row acc)

/-- The framebuffer after drawing the rows at (`vx`, `vy`), and whether some cell went from 1 to 0 (R191). -/
def Framebuffer.draw (fb : Framebuffer) (vx vy : Byte) (rows : List Byte) : Framebuffer × Bool :=
  drawRows vx vy 0 rows (fb, false)

/-- The framebuffer replaced. -/
def State.setFb (s : State) (fb : Framebuffer) : State := { s with fb := fb }

/-! ### The inputs of a step (R228, R229; log 2) -/

/-- The inputs of this step: the driver's next, or free values. -/
def State.input (s : State) : Inputs :=
  match s.inputs with
  | i :: _ => i
  | [] => ⟨Config.freeKeys s.draws, Config.freeRnd s.draws⟩

/-- The step has used its inputs: the next step takes the next ones. -/
def State.consumeInput (s : State) : State :=
  match s.inputs with
  | _ :: rest => { s with inputs := rest }
  | [] => { s with draws := s.draws + 1 }

/-- `KeyHeld(k)` (R9, R228). -/
def State.keyHeld (s : State) (k : Nat) : Bool := s.input.keys.getLsbD k

/-- The least held key, if any (R203). -/
def State.lowestKey (s : State) : Option Nat := (List.range 16).find? fun k => s.keyHeld k

/-- `RandomByte()` (R9, R229). -/
def State.randomByte (s : State) : Byte := s.input.rnd

/-! ### Taking a fault (R210 to R218)

The return beside it: there is none; only the reset port clears the latch (R218, `State.resetPort`). -/

/-- The 3-bit code of a cause (R211; D17, log 11). -/
def Fault.code : Fault → BitVec 3
  | .stackOverflow => 1
  | .stackUnderflow => 2
  | .fetchRange _ => 3
  | .dataRange _ => 4
  | .indexRange _ => 5
  | .keyIndexRange _ => 6

/-- The 17-bit value recorded for a cause (R211; D17, log 11). -/
def Fault.info : Fault → BitVec 17
  | .stackOverflow => 0
  | .stackUnderflow => 0
  | .fetchRange a => a
  | .dataRange a => a
  | .indexRange t => t
  | .keyIndexRange b => b.setWidth 17

/-- Takes a fault: latches (code, `pc`, info) and changes nothing else; `pc` stays at the faulting instruction (R214, R215;
`changed` was cleared as the step's first action, `State.beginStep`). D16, log 11. -/
def State.takeFault (s : State) (f : Fault) : State := { s with fault := some ⟨f.code, s.pc, f.info⟩ }

/-- The lowest address out of range of an access at `a` whose range is not all inside memory (R67, R121). -/
def lowestBadAddress (a : Nat) : BitVec 17 := BitVec.ofNat 17 (max a Config.memSize)

/-- The fault of a data access through `I` that is out of range (R67, R211). -/
def State.takeDataFault (s : State) : State := s.takeFault (.dataRange (lowestBadAddress s.i.toNat))

/-- The fault of a fetch that is out of range (R121, R211). -/
def State.takeFetchFault (s : State) : State := s.takeFault (.fetchRange (lowestBadAddress s.pc.toNat))

/-! ### The parts of a step around its instruction (R120) -/

/-- Action 1: `changed <- 0` (R126); a step also ends the load phase (R244). -/
def State.beginStep (s : State) : State := { s with changed := false, loadOpen := false }

/-- The end of the load phase (R244; log 12). -/
def State.closeLoad (s : State) : State := { s with loadOpen := false }

/-- Action 3: the instruction word at `pc`, or none when it is not all inside memory (R121, R64). -/
def State.fetch (s : State) : Option Word :=
  if s.pc.toNat ≤ 4094 then some (wordOfBytes (s.byte s.pc.toNat) (s.byte (s.pc.toNat + 1))) else none

/-- A timer counts down to 0 and stays there (R127). -/
def tickTimer (b : Byte) : Byte := if b = 0 then 0 else b - 1

/-- Action 7: both timers tick (R127). -/
def State.tick (s : State) : State := { s with dt := tickTimer s.dt, st := tickTimer s.st }

/-- The end of a step: the timers tick unless a fault is latched (R120, R215), and the step's inputs are used up. -/
def State.endStep (s : State) : State := (if s.fault.isSome then s else s.tick).consumeInput

end Sys2Proof.Machine
end

