-- ==== Sys2Proof/Machine/Flags.lean ====
section
/-! DEFINITION. The flag `V[15]` and every computation of it (spec/10_state.md R28 to R30). -/

namespace Sys2Proof.Machine

open Sys2Proof

/-- `FLAG_REG` (R6, R22). -/
def flagReg : Reg := 15

/-- A flag as the byte 0 or 1 (R28). -/
def flagByte (f : Bool) : Byte := if f then 1 else 0

/-- `V[15] <- f`, the last register write of a flag-defining instruction (R30; D11, log 10). -/
def State.setFlag (s : State) (f : Bool) : State := s.setReg flagReg (flagByte f)

/-- The carry of an addition: the exact sum is above 255 (R166). -/
def carryFlag (a b : Byte) : Bool := decide (255 < a.toNat + b.toNat)

/-- The flag of a subtraction `a - b`: `a` is strictly greater, unsigned (R167, R169). -/
def greaterFlag (a b : Byte) : Bool := decide (b.toNat < a.toNat)

/-- The bit shifted out to the right (R168). -/
def lowBitFlag (a : Byte) : Bool := a.getLsbD 0

/-- The bit shifted out to the left (R170). -/
def highBitFlag (a : Byte) : Bool := a.getLsbD 7

/-- The flag of add-to-index: the new index exceeds `ADDI_FLAG_THRESHOLD` (R181; D9, log 3). -/
def indexFlag (threshold t : Nat) : Bool := decide (threshold < t)

end Sys2Proof.Machine
end

