-- ==== Sys2Proof/Machine/Operands.lean ====
section
/-! DEFINITION. The operand forms beside a register and a byte: the 12-bit address and the accesses through `I`
(spec/30_encoding.md R95; spec/43_index_memory.md, addressing modes). -/

namespace Sys2Proof.Machine

open Sys2Proof

/-- `zext_16(NNN)` (R95). -/
def addr16 (nnn : Addr12) : Word := nnn.setWidth 16

/-- `zext_16` of a byte (R95, R148, R182). -/
def byte16 (b : Byte) : Word := b.setWidth 16

/-- The address of the access through `I` with byte offset `k`: a natural number, never reduced (R66). -/
def State.dataAddress (s : State) (k : Nat) : Nat := s.i.toNat + k

/-- The `n` bytes at `I`, or none when some address is out of range (R66, R67). -/
def State.loadData (s : State) (n : Nat) : Option (List Byte) := s.memRead (s.dataAddress 0) n

/-- The state with the bytes stored at `I`, or none when some address is out of range (R67). -/
def State.storeData (s : State) (bs : List Byte) : Option State :=
  s.memWrite (s.dataAddress 0) bs

/-- The decimal digits of a byte: hundreds, tens, ones (R183). -/
def bcdDigits (b : Byte) : List Byte :=
  [BitVec.ofNat 8 (b.toNat / 100), BitVec.ofNat 8 (b.toNat / 10 % 10), BitVec.ofNat 8 (b.toNat % 10)]

end Sys2Proof.Machine
end

