-- ==== Sys2Proof/Machine/Alu.lean ====
section
/-! DEFINITION. Register and ALU instructions (spec/42_alu.md R160 to R172). Operands are read from the state at the start;
the result is written first and the flag last (R30, R125; D11, log 10). -/

namespace Sys2Proof.Machine

open Sys2Proof

/-- load-immediate (R160). -/
def execLoadImm (x : Reg) (kk : Byte) (s : State) : Host.Outcome State Fault Refusal :=
  .next (s.setReg x kk).advance

/-- add-immediate: no flag (R161). -/
def execAddImm (x : Reg) (kk : Byte) (s : State) : Host.Outcome State Fault Refusal :=
  .next (s.setReg x (s.reg x + kk)).advance

/-- move (R162). -/
def execMove (x y : Reg) (s : State) : Host.Outcome State Fault Refusal :=
  .next (s.setReg x (s.reg y)).advance

/-- or: no flag (R163). -/
def execOrReg (x y : Reg) (s : State) : Host.Outcome State Fault Refusal :=
  .next (s.setReg x (s.reg x ||| s.reg y)).advance

/-- and: no flag (R164). -/
def execAndReg (x y : Reg) (s : State) : Host.Outcome State Fault Refusal :=
  .next (s.setReg x (s.reg x &&& s.reg y)).advance

/-- xor: no flag (R165). -/
def execXorReg (x y : Reg) (s : State) : Host.Outcome State Fault Refusal :=
  .next (s.setReg x (s.reg x ^^^ s.reg y)).advance

/-- The shape of a flag-defining ALU instruction: result, then flag, then `pc` (R30, R125). -/
def State.writeResult (s : State) (x : Reg) (result : Byte) (flag : Bool) : State :=
  ((s.setReg x result).setFlag flag).advance

/-- add registers (R166). -/
def execAddReg (x y : Reg) (s : State) : Host.Outcome State Fault Refusal :=
  .next (s.writeResult x (s.reg x + s.reg y) (carryFlag (s.reg x) (s.reg y)))

/-- sub registers (R167). -/
def execSubReg (x y : Reg) (s : State) : Host.Outcome State Fault Refusal :=
  .next (s.writeResult x (s.reg x - s.reg y) (greaterFlag (s.reg x) (s.reg y)))

/-- shift-right: of `V[X]`; `Y` plays no part (R168). -/
def execShiftRight (x _y : Reg) (s : State) : Host.Outcome State Fault Refusal :=
  .next (s.writeResult x (s.reg x >>> 1) (lowBitFlag (s.reg x)))

/-- sub-reverse (R169). -/
def execSubReverse (x y : Reg) (s : State) : Host.Outcome State Fault Refusal :=
  .next (s.writeResult x (s.reg y - s.reg x) (greaterFlag (s.reg y) (s.reg x)))

/-- shift-left: of `V[X]`; `Y` plays no part (R170). -/
def execShiftLeft (x _y : Reg) (s : State) : Host.Outcome State Fault Refusal :=
  .next (s.writeResult x (s.reg x <<< 1) (highBitFlag (s.reg x)))

/-- random-masked (R171; the byte is free, log 2). -/
def execRandomMasked (x : Reg) (kk : Byte) (s : State) : Host.Outcome State Fault Refusal :=
  .next (s.setReg x (kk &&& s.randomByte)).advance

end Sys2Proof.Machine
end

