-- ==== Sys2Proof/Machine/ControlFlow.lean ====
section
/-! DEFINITION. Control transfer and the fallback (spec/41_control_flow.md R140 to R148; spec/40_step_fetch_decode.md R124). -/

namespace Sys2Proof.Machine

open Sys2Proof

/-- return (R140). -/
def execRet (s : State) : Host.Outcome State Fault Refusal :=
  match s.pop with
  | some (t, a) => .next (t.setPc a)
  | none => .next (s.takeFault .stackUnderflow)

/-- jump absolute (R141). -/
def execJump (nnn : Addr12) (s : State) : Host.Outcome State Fault Refusal := .next (s.setPc (addr16 nnn))

/-- call (R142). -/
def execCall (nnn : Addr12) (s : State) : Host.Outcome State Fault Refusal :=
  match s.push (s.pc + 2) with
  | some t => .next (t.setPc (addr16 nnn))
  | none => .next (s.takeFault .stackOverflow)

/-- skip-if-equal-immediate (R143). -/
def execSkipEqImm (x : Reg) (kk : Byte) (s : State) : Host.Outcome State Fault Refusal :=
  .next (s.skipIf (decide (s.reg x = kk)))

/-- skip-if-not-equal-immediate (R144). -/
def execSkipNeImm (x : Reg) (kk : Byte) (s : State) : Host.Outcome State Fault Refusal :=
  .next (s.skipIf (decide (s.reg x ≠ kk)))

/-- skip-if-registers-equal (R145). -/
def execSkipEqReg (x y : Reg) (s : State) : Host.Outcome State Fault Refusal :=
  .next (s.skipIf (decide (s.reg x = s.reg y)))

/-- skip-if-registers-not-equal (R146). -/
def execSkipNeReg (x y : Reg) (s : State) : Host.Outcome State Fault Refusal :=
  .next (s.skipIf (decide (s.reg x ≠ s.reg y)))

/-- jump-with-offset: absolute, from `V[0]`, not reduced (R148; D22, log 15). -/
def execJumpOffset (nnn : Addr12) (s : State) : Host.Outcome State Fault Refusal :=
  .next (s.setPc (addr16 nnn + byte16 (s.reg 0)))

/-- The fallback for a word that selects no row: only `pc` moves (R98, R124). -/
def execFallback (s : State) : Host.Outcome State Fault Refusal := .next s.advance

end Sys2Proof.Machine
end

