-- ==== Sys2Proof/Machine/Display.lean ====
section
/-! DEFINITION. Framebuffer instructions (spec/44_display.md R190 to R192). -/

namespace Sys2Proof.Machine

open Sys2Proof

/-- clear-screen (R190). -/
def execClearScreen (s : State) : Host.Outcome State Fault Refusal :=
  .next ((s.setFb Framebuffer.blank).setChanged true).advance

/-- draw-sprite (R191; D4, D5, D6, log 6; D32, log 16). -/
def execDrawSprite (x y : Reg) (n : Nibble) (s : State) : Host.Outcome State Fault Refusal :=
  match s.loadData n.toNat with
  | some rows =>
    .next (((s.setFb (s.fb.draw (s.reg x) (s.reg y) rows).1).setFlag
      (s.fb.draw (s.reg x) (s.reg y) rows).2).setChanged true).advance
  | none => .next s.takeDataFault

end Sys2Proof.Machine
end

