-- ==== Sys2Proof/Machine/IndexMemory.lean ====
section
/-! DEFINITION. Index register and memory instructions (spec/43_index_memory.md R180 to R186). -/

namespace Sys2Proof.Machine

open Sys2Proof

/-- load-index-immediate (R180). -/
def execLoadIndexImm (nnn : Addr12) (s : State) : Host.Outcome State Fault Refusal :=
  .next (s.setIndex (addr16 nnn)).advance

/-- add-to-index (R181; the overflow is D10, log 9; the threshold D9, log 3). -/
def execAddToIndex (x : Reg) (s : State) : Host.Outcome State Fault Refusal :=
  if 65535 < s.i.toNat + (s.reg x).toNat then
    .next (s.takeFault (.indexRange (BitVec.ofNat 17 (s.i.toNat + (s.reg x).toNat))))
  else
    .next ((s.setIndex (BitVec.ofNat 16 (s.i.toNat + (s.reg x).toNat))).setFlag
      (indexFlag s.addiThreshold (s.i.toNat + (s.reg x).toNat))).advance

/-- load-font-sprite-address: the whole byte times 5 (R182). -/
def execLoadFontAddr (x : Reg) (s : State) : Host.Outcome State Fault Refusal :=
  .next (s.setIndex (byte16 (s.reg x) * 5)).advance

/-- store-bcd (R183). -/
def execStoreBcd (x : Reg) (s : State) : Host.Outcome State Fault Refusal :=
  match s.storeData (bcdDigits (s.reg x)) with
  | some t => .next t.advance
  | none => .next s.takeDataFault

/-- register-dump: `V[0]` to `V[X]`; `I` stays (R184). -/
def execRegDump (x : Reg) (s : State) : Host.Outcome State Fault Refusal :=
  match s.storeData (s.regs (x.toNat + 1)) with
  | some t => .next t.advance
  | none => .next s.takeDataFault

/-- register-load: `V[0]` to `V[X]`; `I` stays (R185). -/
def execRegLoad (x : Reg) (s : State) : Host.Outcome State Fault Refusal :=
  match s.loadData (x.toNat + 1) with
  | some bs => .next (s.setRegs 0 bs).advance
  | none => .next s.takeDataFault

end Sys2Proof.Machine
end

