-- ==== Sys2Proof/Machine/TimersKeys.lean ====
section
/-! DEFINITION. Keypad and timer instructions (spec/45_timers_keys.md R200 to R205). The inputs of the step are free (log 2). -/

namespace Sys2Proof.Machine

open Sys2Proof

/-- skip-if-key-pressed: the key number is the register's value (R200; above 15 a fault, D13, log 8). -/
def execSkipKeyPressed (x : Reg) (s : State) : Host.Outcome State Fault Refusal :=
  if 15 < (s.reg x).toNat then .next (s.takeFault (.keyIndexRange (s.reg x)))
  else .next (s.skipIf (s.keyHeld (s.reg x).toNat))

/-- skip-if-key-not-pressed (R201; above 15 a fault, D13, log 8). -/
def execSkipKeyNotPressed (x : Reg) (s : State) : Host.Outcome State Fault Refusal :=
  if 15 < (s.reg x).toNat then .next (s.takeFault (.keyIndexRange (s.reg x)))
  else .next (s.skipIf (!s.keyHeld (s.reg x).toNat))

/-- read-delay-timer: the value before this step's tick (R202). -/
def execReadDelayTimer (x : Reg) (s : State) : Host.Outcome State Fault Refusal :=
  .next (s.setReg x s.dt).advance

/-- What wait-for-key leaves in `V[X]`: the least held key, or the old value when none is held (R203; D12, log 8). -/
def State.keyOrKept (s : State) (x : Reg) : Byte :=
  match s.lowestKey with
  | some k => BitVec.ofNat 8 k
  | none => s.reg x

/-- wait-for-key: never waits (R203). -/
def execWaitForKey (x : Reg) (s : State) : Host.Outcome State Fault Refusal :=
  .next (s.setReg x (s.keyOrKept x)).advance

/-- set-delay-timer: the tick of the same step follows (R204). -/
def execSetDelayTimer (x : Reg) (s : State) : Host.Outcome State Fault Refusal :=
  .next (s.setDelay (s.reg x)).advance

/-- set-sound-timer: the tick of the same step follows (R205). -/
def execSetSoundTimer (x : Reg) (s : State) : Host.Outcome State Fault Refusal :=
  .next (s.setSound (s.reg x)).advance

end Sys2Proof.Machine
end

