-- ==== Sys2Proof/Machine/Step.lean ====
section
/-! DEFINITION. The step (spec/40_step_fetch_decode.md R120) and the placing of one instruction where it fetches. -/

namespace Sys2Proof.Machine

open Sys2Proof

/-- Actions 4 to 6: decode, dispatch and run the handler; a word that selects no row runs the fallback (R122 to R124). -/
def runWord (w : Word) (s : State) : Host.Outcome State Fault Refusal :=
  match decodeWord w with
  | .ok i => exec i s
  | .error _ => execFallback s

/-- Actions 7 and 8 after a handler (R127, R215). -/
def finish : Host.Outcome State Fault Refusal → Host.Outcome State Fault Refusal
  | .next t => .next t.endStep
  | .fault r => .fault r
  | .refused r => .refused r

/-- Actions 3 to 8 of a step on a machine with no fault latched (R120, R121). -/
def runStep (s : State) : Host.Outcome State Fault Refusal :=
  match s.fetch with
  | some w => finish (runWord w s)
  | none => finish (.next s.takeFetchFault)

/-- One step (R120): `changed` is cleared; with a fault latched nothing else happens (R217); else the instruction at `pc`
runs. The inputs `keys` and `rnd` are `State.input` (log 2). -/
def step (s : State) : Host.Outcome State Fault Refusal :=
  if s.fault.isSome then finish (.next s.beginStep) else runStep s.beginStep

/-- A table word stored where the next step fetches: its two bytes at `pc` and `pc + 1`, the first at the lower address.
Where no fetch could be made there (`pc` > 4094, or a fault is latched), `pc` is the entry point and the latch is clear,
so that the very next step runs the word (log 13). -/
def State.withFetchWord (s : State) (nbits w : Nat) : State :=
  let a : Word := if s.pc.toNat ≤ 4094 then s.pc else 0x200
  { s.putBytes a.toNat [hiByte (tableWord nbits w), loByte (tableWord nbits w)] with pc := a, fault := none }

end Sys2Proof.Machine
end

