-- ==== Sys2Proof/Machine/Ports.lean ====
section
/-! DEFINITION. The ports: reset, load, step, and the outputs (spec/60_exceptions.md R226 to R232; spec/70_reset_and_hazards.md
R240 to R244; spec/40_step_fetch_decode.md R128; spec/00_scope.md R10). -/

namespace Sys2Proof.Machine

open Sys2Proof

/-- The `reset` port: the pristine state, whatever came before (R240, R241). The environment's inputs and the instance's
parameters are not the block's state and stay (logs 2, 3, 4): memory reads as the instance's own `FONT`, then zero. -/
def State.resetPort (s : State) : State :=
  { State.reset with addiThreshold := s.addiThreshold, font := s.font, inputs := s.inputs, draws := s.draws }

/-- The `load` port: the ROM's bytes from 0x200 on, those beyond the capacity dropped; once, before the first step, and
refused at any other time (R227, R244; D25, log 12). -/
def State.loadPort (s : State) (rom : List Byte) : Host.Outcome State Fault Refusal :=
  if s.loadOpen then
    .next (s.putBytes Config.progBase (rom.take Config.romMax)).closeLoad
  else .refused .loadNotPristine

/-- The output snapshot (R128, R230). -/
structure Snapshot where
  fbOut : Framebuffer
  changedOut : Bool
  tone : Bool
  deriving DecidableEq, Repr

/-- `tone`: `st` > 0, after the tick when taken at the end of a step (R128; D20, log 16). -/
def State.tone (s : State) : Bool := decide (0 < s.st.toNat)

/-- The snapshot the outputs show between steps (R128, R193, R230). -/
def State.snapshot (s : State) : Snapshot := ⟨s.fb, s.changed, s.tone⟩

/-- The outputs `fault_code`, `fault_pc`, `fault_info`: the latch, all 0 when none (R211, R231). -/
def State.faultOutputs (s : State) : FaultRecord := s.fault.getD ⟨0, 0, 0⟩

/-- What a step returns (R10). -/
inductive StepResult where
  | ok (out : Snapshot)
  | fault (r : FaultRecord)
  deriving DecidableEq, Repr

/-- What the step that led to this state returned (R10, R217). -/
def State.result (s : State) : StepResult :=
  match s.fault with
  | none => .ok s.snapshot
  | some r => .fault r

/-- The driver's three moves, each between the others (R226). -/
inductive DriverMove where
  | reset
  | load (rom : List Byte)
  | step (keys : BitVec 16) (rnd : Byte)
  deriving DecidableEq, Repr

/-- The `step` port with its inputs valid: they come before what the schedule holds (R226, R228, R229). -/
def State.stepPort (s : State) (keys : BitVec 16) (rnd : Byte) : Host.Outcome State Fault Refusal :=
  Sys2Proof.Machine.step { s with inputs := ⟨keys, rnd⟩ :: s.inputs }

/-- One move of the driver (R226). -/
def drive (m : DriverMove) (s : State) : Host.Outcome State Fault Refusal :=
  match m with
  | .reset => .next s.resetPort
  | .load rom => s.loadPort rom
  | .step keys rnd => s.stepPort keys rnd

end Sys2Proof.Machine
end

