-- ==== Sys2Proof/Safety.lean ====
section
/-! DEFINITION. The terms claims use: what an instruction leaves unchanged, and the invariant of a machine that reset, load
and steps can reach (spec/10_state.md R27, R51; spec/60_exceptions.md R211, R215). -/

namespace Sys2Proof

/-- The general registers an instruction may write: the destination its rule names, and `V[15]` for the seven
flag-defining families (R29). -/
def Instr.writes (i : Instr) : List Reg :=
  match i with
  | .loadImm x _ | .addImm x _ | .move x _ | .orReg x _ | .andReg x _ | .xorReg x _ | .randomMasked x _
  | .readDelayTimer x | .waitForKey x => [x]
  | .addReg x _ | .subReg x _ | .shiftRight x _ | .subReverse x _ | .shiftLeft x _ => [x, 15]
  | .drawSprite _ _ _ | .addToIndex _ => [15]
  | .regLoad x => (List.range (x.toNat + 1)).map (BitVec.ofNat 4)
  | .clearScreen | .ret | .jump _ | .call _ | .skipEqImm _ _ | .skipNeImm _ _ | .skipEqReg _ _ | .skipNeReg _ _
  | .loadIndexImm _ | .jumpOffset _ | .skipKeyPressed _ | .skipKeyNotPressed _ | .setDelayTimer _ | .setSoundTimer _
  | .loadFontAddr _ | .storeBcd _ | .regDump _ => []

/-- The three families that read the `keys` input (R228). -/
def Instr.readsKeys (i : Instr) : Prop :=
  (∃ x, i = .skipKeyPressed x) ∨ (∃ x, i = .skipKeyNotPressed x) ∨ (∃ x, i = .waitForKey x)

/-- The one family that reads the `rnd` input (R229). -/
def Instr.readsRnd (i : Instr) : Prop := ∃ x kk, i = .randomMasked x kk

/-- The two families that write the framebuffer and raise `changed` (R36, R192). -/
def Instr.writesDisplay (i : Instr) : Prop := i = .clearScreen ∨ ∃ x y n, i = .drawSprite x y n

end Sys2Proof

namespace Sys2Proof.Machine

open Sys2Proof

/-- The pieces of state of R20. -/
inductive Part where
  | mem | v | i | pc | stack | sp | dt | st | fb | changed | fault
  deriving DecidableEq, Repr

/-- The piece of state is the same in both states. Memory is compared by what each address reads as, registers by what each
register number reads as. -/
def Part.same (p : Part) (s t : State) : Prop :=
  match p with
  | .mem => ∀ a : Nat, t.byte a = s.byte a
  | .v => ∀ z : Reg, t.reg z = s.reg z
  | .i => t.i = s.i
  | .pc => t.pc = s.pc
  | .stack => t.stack = s.stack
  | .sp => t.sp = s.sp
  | .dt => t.dt = s.dt
  | .st => t.st = s.st
  | .fb => t.fb = s.fb
  | .changed => t.changed = s.changed
  | .fault => t.fault = s.fault

/-- The model's own fields are the same in both states: the instance's parameters, the inputs, the load phase. -/
structure EnvSame (s t : State) : Prop where
  addiThreshold : t.addiThreshold = s.addiThreshold
  inputs : t.inputs = s.inputs
  draws : t.draws = s.draws
  loadOpen : t.loadOpen = s.loadOpen
  font : t.font = s.font

/-- The frame of a whole step: nothing of R20's list changes but, at most, the named pieces of state. -/
def KeepsRest (parts : List Part) (s t : State) : Prop := ∀ p : Part, p ∉ parts → p.same s t

/-- The frame of an instruction: from `s` to `t` nothing changes but, at most, the named pieces of state. -/
structure OnlyChanges (parts : List Part) (s t : State) : Prop where
  rest : KeepsRest parts s t
  env : EnvSame s t

/-- Every general register but the named ones is the same in both states. -/
def OtherRegsSame (xs : List Reg) (s t : State) : Prop := ∀ z : Reg, z ∉ xs → t.reg z = s.reg z

/-- Every byte outside the `n` bytes at `a` reads the same in both states. -/
def OtherBytesSame (a n : Nat) (s t : State) : Prop :=
  ∀ b : Nat, ¬ (a ≤ b ∧ b < a + n) → t.byte b = s.byte b

/-- The word at `pc` as the spec reads it: `mem[pc] ++ mem[pc+1]` (R64, R121). -/
def State.wordAtPc (s : State) : Word := wordOfBytes (s.byte s.pc.toNat) (s.byte (s.pc.toNat + 1))

/-- The step fetches (no fault is latched and `pc` <= 4094) and the word at `pc` decodes to `i` (R120, R121). -/
def State.Runs (s : State) (i : Instr) : Prop :=
  s.fault = none ∧ s.pc.toNat ≤ 4094 ∧ decodeWord s.wordAtPc = .ok i

/-- The sprite of `n` rows at `I`, drawn at (`vx`, `vy`), has a 1 bit on the cell `fb[py][px]` (R191's loop body). -/
def State.SpriteCovers (s : State) (vx vy : Byte) (n : Nat) (py : Fin 32) (px : Fin 64) : Prop :=
  ∃ r c : Nat, r < n ∧ c < 8 ∧ py.val = (vy.toNat + r) % 32 ∧ px.val = (vx.toNat + c) % 64 ∧
    (s.byte (s.dataAddress r)).getLsbD (7 - c) = true

/-- The fault an instruction raises in a state, with the record R211 gives it (R210, R212). -/
def expectedFault (i : Instr) (s : State) : Option FaultRecord :=
  match i with
  | .call _ => if s.sp = 16 then some ⟨1, s.pc, 0⟩ else none
  | .ret => if s.sp = 0 then some ⟨2, s.pc, 0⟩ else none
  | .drawSprite _ _ n =>
    if 0 < n.toNat ∧ 4095 < s.i.toNat + n.toNat - 1 then some ⟨4, s.pc, BitVec.ofNat 17 (max s.i.toNat 4096)⟩ else none
  | .storeBcd _ => if 4095 < s.i.toNat + 2 then some ⟨4, s.pc, BitVec.ofNat 17 (max s.i.toNat 4096)⟩ else none
  | .regDump x => if 4095 < s.i.toNat + x.toNat then some ⟨4, s.pc, BitVec.ofNat 17 (max s.i.toNat 4096)⟩ else none
  | .regLoad x => if 4095 < s.i.toNat + x.toNat then some ⟨4, s.pc, BitVec.ofNat 17 (max s.i.toNat 4096)⟩ else none
  | .addToIndex x =>
    if 65535 < s.i.toNat + (s.reg x).toNat then some ⟨5, s.pc, BitVec.ofNat 17 (s.i.toNat + (s.reg x).toNat)⟩ else none
  | .skipKeyPressed x => if 15 < (s.reg x).toNat then some ⟨6, s.pc, BitVec.ofNat 17 (s.reg x).toNat⟩ else none
  | .skipKeyNotPressed x => if 15 < (s.reg x).toNat then some ⟨6, s.pc, BitVec.ofNat 17 (s.reg x).toNat⟩ else none
  | .clearScreen | .jump _ | .skipEqImm _ _ | .skipNeImm _ _ | .skipEqReg _ _ | .loadImm _ _ | .addImm _ _ | .move _ _
  | .orReg _ _ | .andReg _ _ | .xorReg _ _ | .addReg _ _ | .subReg _ _ | .shiftRight _ _ | .subReverse _ _
  | .shiftLeft _ _ | .skipNeReg _ _ | .loadIndexImm _ | .jumpOffset _ | .randomMasked _ _ | .readDelayTimer _
  | .waitForKey _ | .setDelayTimer _ | .setSoundTimer _ | .loadFontAddr _ => none

/-- A latched record is one that R211 allows. -/
def FaultRecord.legal (r : FaultRecord) : Prop :=
  (r.code = 1 ∧ r.info = 0 ∧ r.fpc.toNat ≤ 4094) ∨
  (r.code = 2 ∧ r.info = 0 ∧ r.fpc.toNat ≤ 4094) ∨
  (r.code = 3 ∧ r.info.toNat = max r.fpc.toNat 4096 ∧ 4094 < r.fpc.toNat) ∨
  (r.code = 4 ∧ 4096 ≤ r.info.toNat ∧ r.info.toNat ≤ 65535 ∧ r.fpc.toNat ≤ 4094) ∨
  (r.code = 5 ∧ 65536 ≤ r.info.toNat ∧ r.info.toNat ≤ 65790 ∧ r.fpc.toNat ≤ 4094) ∨
  (r.code = 6 ∧ 16 ≤ r.info.toNat ∧ r.info.toNat ≤ 255 ∧ r.fpc.toNat ≤ 4094)

/-- The block's state is the pristine one (R240); the environment's fields may be any. -/
def State.pristine (s : State) : Prop :=
  s = { State.reset with
    addiThreshold := s.addiThreshold, font := s.font, inputs := s.inputs, draws := s.draws, loadOpen := s.loadOpen }

/-- The invariant of every state that reset, load and steps can reach (R51, R27; the latch: R211, R215, R126; the load
phase: R244). `sp` is 0 to 16 by its type. -/
structure State.Inv (s : State) : Prop where
  memory : s.memWf = true
  pcBound : s.pc.toNat ≤ 0x10FE
  stackBound : ∀ (k : Nat) (h : k < 16), (s.stack[k]'h).toNat ≤ 4096
  latch : ∀ r : FaultRecord, s.fault = some r → r.legal ∧ r.fpc = s.pc ∧ s.changed = false
  loadPhase : s.loadOpen = true → s.pristine

/-- A safe step: it was made with no fault latched and latched none (R10's `Ok`). -/
def SafeStep (s t : State) : Prop := s.fault = none ∧ step s = .next t ∧ t.fault = none

end Sys2Proof.Machine
end

