-- ==== Sys2Proof/Certificates/Slice0/Obligations.lean ====
section
/-! DEFINITION. The statements. Each docstring names what it formalises. Where a clause rests on one of the spec's own decisions
(`D<n>` of spec/92_eei_decisions.md) or on a choice of the model's, the docstring names it and the log entry. -/

open Sys2Proof Sys2Proof.Machine

/-! ### Encoding -/

/-- Every well-formed instruction's two bytes, with anything after them, decode to that instruction and leave the rest
(30_encoding.md sections 1 and 3). The bit patterns are D1, log 5. -/
def Obligations.DecodeOfEncodedBytes : Prop :=
  ∀ (i : Instr) (rest : List Byte), i.wf = true → decode (encodeBytes i ++ rest) = .ok (i, rest)

/-- The other direction: a word that decodes to an instruction is that instruction's word, so no bit of a word is dropped
(30_encoding.md section 1; the ignored `Y` of the shifts is kept, section 1's last line). D1, log 5. -/
def Obligations.EncodeOfDecodedWord : Prop :=
  ∀ (w : Word) (i : Instr), decodeWord w = .ok i → encode i = w ∧ i.wf = true

/-- The map has 34 rows and no word selects two of them (30_encoding.md section 3). D1, D2, log 5. -/
def Obligations.OpcodeRowsAreDisjoint : Prop :=
  opcodeMap.length = 34 ∧
  opcodeMap.Pairwise fun r r' => ∀ w : Word, ¬ (w &&& r.mask = r.pattern ∧ w &&& r'.mask = r'.pattern)

/-- Dispatch selects the instruction of the one row with `w and mask = match` (40_step_fetch_decode.md section 4; D1, D2,
log 5). Where no row matches, the spec's dispatch selects the fallback; the decoder marks such a word `unknown`, which is
the model's form of that (DESIGN CHOICE, log 14), and UnknownWordIsNoOp says that the step then runs the fallback. -/
def Obligations.DecodeFollowsTheMap : Prop :=
  (∀ (w : Word) (r : OpRow), r ∈ opcodeMap → w &&& r.mask = r.pattern → decodeWord w = .ok (r.build w)) ∧
  (∀ (w : Word), (∀ r ∈ opcodeMap, w &&& r.mask ≠ r.pattern) → decodeWord w = .error (.unknown w))

/-- The unknown words by leading nibble: the table of 30_encoding.md section 4. D2, log 5. -/
def Obligations.UnknownWordsByLeadingNibble : Prop :=
  ∀ w : Word, decodeWord w = .error (.unknown w) ↔
    (nibble0 w = 0x0 ∧ w ≠ 0x00E0 ∧ w ≠ 0x00EE) ∨
    (nibble0 w = 0x5 ∧ fieldN w ≠ 0) ∨
    (nibble0 w = 0x8 ∧ fieldN w ∈ [(0x8 : Nibble), 0x9, 0xA, 0xB, 0xC, 0xD, 0xF]) ∨
    (nibble0 w = 0x9 ∧ fieldN w ≠ 0) ∨
    (nibble0 w = 0xE ∧ fieldKK w ∉ [(0x9E : Byte), 0xA1]) ∨
    (nibble0 w = 0xF ∧ fieldKK w ∉ [(0x07 : Byte), 0x0A, 0x15, 0x18, 0x1E, 0x29, 0x33, 0x55, 0x65])

/-- R91, R92, R93: the operand groups are the word's nibbles, decode is total, and the nibbles recombine to the word. -/
def Obligations.NibblesRecombine : Prop :=
  ∀ w : Word,
    (nibble0 w).toNat * 4096 + (fieldX w).toNat * 256 + (fieldY w).toNat * 16 + (fieldN w).toNat = w.toNat ∧
    (fieldNNN w).toNat = (fieldX w).toNat * 256 + (fieldY w).toNat * 16 + (fieldN w).toNat ∧
    (fieldKK w).toNat = (fieldY w).toNat * 16 + (fieldN w).toNat

/-- One word of each family's format, written out from the table's bits (30_encoding.md section 3). D1, log 5. -/
def Obligations.SampleWordsDecode : Prop :=
  decodeWord 0b0000000011101110 = .ok .ret ∧ decodeWord 0b0010001100000000 = .ok (.call 0x300) ∧
  decodeWord 0b0111000100100000 = .ok (.addImm 1 0x20) ∧ decodeWord 0b1000000100100101 = .ok (.subReg 1 2) ∧
  decodeWord 0b1101000100100101 = .ok (.drawSprite 1 2 5) ∧ decodeWord 0b1110000010100001 = .ok (.skipKeyNotPressed 0) ∧
  decodeWord 0b1111001000110011 = .ok (.storeBcd 2)

/-! ### The step -/

/-- A step runs the decoded instruction (40_step_fetch_decode.md section 1). When no fault is latched, `pc` <= 4094 and the
word at `pc` decodes to a well-formed instruction, the step is `exec` of it between `beginStep` (which clears `changed` and
ends the load phase, log 12) and `endStep` (which ticks the timers unless a fault is latched, and uses up the step's inputs,
log 2), each of which changes nothing else. `exec` always answers a next state: a fault is taken as one (log 1). -/
def Obligations.StepRunsDecodedInstruction : Prop :=
  (∀ (s : State) (i : Instr), s.Runs i → i.wf = true →
    ∃ t, exec i s.beginStep = .next t ∧ step s = .next t.endStep) ∧
  (∀ s : State, s.beginStep = { s with changed := false, loadOpen := false }) ∧
  (∀ t : State, t.fault = none →
    t.endStep.dt = (if t.dt = 0 then 0 else t.dt - 1) ∧ t.endStep.st = (if t.st = 0 then 0 else t.st - 1)) ∧
  (∀ t : State, t.fault ≠ none → t.endStep.dt = t.dt ∧ t.endStep.st = t.st) ∧
  (∀ t : State, KeepsRest [.dt, .st] t t.endStep ∧ t.endStep.addiThreshold = t.addiThreshold ∧
    t.endStep.font = t.font ∧ t.endStep.loadOpen = t.loadOpen ∧ t.endStep.inputs = t.inputs.tail)

/-- A word that selects no row is executed as the no-op: `pc` moves by 2, the timers tick, `changed` is cleared, nothing else
changes (30_encoding.md section 4; 40_step_fetch_decode.md section 4). D2, D30, logs 5, 14. -/
def Obligations.UnknownWordIsNoOp : Prop :=
  ∀ s : State, s.fault = none → s.pc.toNat ≤ 4094 → decodeWord s.wordAtPc = .error (.unknown s.wordAtPc) →
    ∃ t, step s = .next t ∧ t.pc = s.pc + 2 ∧ t.changed = false ∧
      t.dt = (if s.dt = 0 then 0 else s.dt - 1) ∧ t.st = (if s.st = 0 then 0 else s.st - 1) ∧
      KeepsRest [.pc, .changed, .dt, .st] s t ∧ t.addiThreshold = s.addiThreshold ∧ t.font = s.font

/-- A fetch above 4094 latches code 3 with the lowest address out of range and does nothing else but clear `changed`
(40_step_fetch_decode.md section 2; 60_exceptions.md sections 1 and 3). D16, D17, log 11. -/
def Obligations.FetchBeyondMemoryFaults : Prop :=
  ∀ s : State, s.fault = none → 4094 < s.pc.toNat →
    ∃ t r, step s = .next t ∧ t.fault = some r ∧ r.code = 3 ∧ r.fpc = s.pc ∧
      r.info.toNat = (if s.pc.toNat = 4095 then 4096 else s.pc.toNat) ∧ t.changed = false ∧
      KeepsRest [.changed, .fault] s t ∧ t.addiThreshold = s.addiThreshold ∧ t.font = s.font

/-- While a fault is latched a step only clears `changed` and returns the same fault (60_exceptions.md section 4). D16,
log 11. -/
def Obligations.LatchedFaultIsSticky : Prop :=
  ∀ (s : State) (r : FaultRecord), s.fault = some r →
    ∃ t, step s = .next t ∧ t.fault = some r ∧ t.result = .fault r ∧ t.changed = false ∧ KeepsRest [.changed] s t ∧
      t.addiThreshold = s.addiThreshold ∧ t.font = s.font

/-- Faults are precise: a step that latches one has no other effect than clearing `changed`; the record is one of the
codes' table, with the faulting instruction's `pc` (60_exceptions.md sections 1 and 3). D16, D17, log 11. -/
def Obligations.FaultingStepIsPrecise : Prop :=
  ∀ s t : State, s.fault = none → step s = .next t → t.fault ≠ none →
    ∃ r, t.fault = some r ∧ r.legal ∧ r.fpc = s.pc ∧ t.changed = false ∧ KeepsRest [.changed, .fault] s t

/-- Which instruction raises which fault, when, and with which record, exhaustively (60_exceptions.md section 1). D10, D13,
D17, logs 8, 9, 11. -/
def Obligations.FaultCausesAreExact : Prop :=
  ∀ (s t : State) (i : Instr), s.Runs i → step s = .next t → t.fault = expectedFault i s

/-- Every step ends, with exactly one of the two outcomes (40_step_fetch_decode.md section 5; 00_scope.md section 5). It also
keeps the instance's two parameters (logs 3, 4) and ends the load phase (log 12). -/
def Obligations.EveryStepEnds : Prop :=
  ∀ s : State, ∃ t, step s = .next t ∧
    ((t.fault = none ∧ t.result = .ok t.snapshot) ∨ (∃ r, t.fault = some r ∧ t.result = .fault r)) ∧
    t.addiThreshold = s.addiThreshold ∧ t.font = s.font ∧ t.loadOpen = false

/-- R127: after a handler without fault each timer is decremented if it is not zero, whatever the instruction; a set-timer's
value is decremented in the same step, and read-delay-timer reads the value before the tick. -/
def Obligations.TimersTickEveryStep : Prop :=
  ∀ s t : State, SafeStep s t →
    ((¬ ∃ x, s.Runs (.setDelayTimer x)) → t.dt = if s.dt = 0 then 0 else s.dt - 1) ∧
    ((¬ ∃ x, s.Runs (.setSoundTimer x)) → t.st = if s.st = 0 then 0 else s.st - 1) ∧
    (∀ x, s.Runs (.setDelayTimer x) → t.dt = if s.reg x = 0 then 0 else s.reg x - 1) ∧
    (∀ x, s.Runs (.setSoundTimer x) → t.st = if s.reg x = 0 then 0 else s.reg x - 1) ∧
    (∀ x, s.Runs (.readDelayTimer x) → t.reg x = s.dt)

/-- R126: `changed` is 1 at the end of a step exactly when the step executed clear-screen or draw-sprite without
faulting. -/
def Obligations.ChangedMarksDisplayWrites : Prop :=
  ∀ s t : State, step s = .next t →
    (t.changed = true ↔ t.fault = none ∧ ∃ i, s.Runs i ∧ i.writesDisplay)

/-- The framebuffer has two writers and both set `changed`; a fault leaves it; the load port does not write it; reset zeroes
it (44_display.md section 3). -/
def Obligations.FramebufferHasTwoWriters : Prop :=
  (∀ s t : State, step s = .next t → t.fb ≠ s.fb →
    t.changed = true ∧ t.fault = none ∧ ∃ i, s.Runs i ∧ i.writesDisplay) ∧
  (∀ (s t : State) (rom : List Byte), s.loadPort rom = .next t → t.fb = s.fb) ∧
  (∀ (s : State) (y : Fin 32) (x : Fin 64), s.resetPort.fb.cell y x = false)

/-- Only call and return move `sp`; only call writes the stack, and only the entry at `sp` (10_state.md section 5). -/
def Obligations.StackMovesOnlyByCallAndReturn : Prop :=
  ∀ s t : State, step s = .next t →
    (t.sp ≠ s.sp → s.Runs .ret ∨ ∃ nnn, s.Runs (.call nnn)) ∧
    (∀ (k : Nat) (h : k < 16), t.stack[k] ≠ s.stack[k] → k = s.sp.val ∧ ∃ nnn, s.Runs (.call nnn))

/-- A step changes a byte of memory only by store-bcd or register-dump, inside the bytes that instruction stores
(20_memory.md section 4, column "writes"). -/
def Obligations.MemoryHasTwoWriters : Prop :=
  ∀ (s t : State) (a : Nat), step s = .next t → t.byte a ≠ s.byte a →
    (∃ x, s.Runs (.storeBcd x) ∧ s.dataAddress 0 ≤ a ∧ a < s.dataAddress 3) ∨
    (∃ x : Reg, s.Runs (.regDump x) ∧ s.dataAddress 0 ≤ a ∧ a < s.dataAddress (x.toNat + 1))

/-- A step changes a general register only by an instruction that names it as its destination or, for `V[15]`, that defines
the flag: the seven families (10_state.md section 4). -/
def Obligations.RegistersChangeOnlyAsDestinations : Prop :=
  ∀ (s t : State) (z : Reg), step s = .next t → t.reg z ≠ s.reg z → ∃ i, s.Runs i ∧ z ∈ i.writes

/-- Only load-index-immediate, add-to-index and load-font-sprite-address write `I` (10_state.md section 5); every data access
leaves it unchanged (43_index_memory.md). -/
def Obligations.IndexHasThreeWriters : Prop :=
  ∀ s t : State, step s = .next t → t.i ≠ s.i →
    ∃ i, s.Runs i ∧ ((∃ nnn, i = .loadIndexImm nnn) ∨ (∃ x, i = .addToIndex x) ∨ ∃ x, i = .loadFontAddr x)

/-- The `keys` input is read by the two key skips and wait-for-key only, and `rnd` by random-masked only: two states that
differ only in an input the instruction does not read go to states that differ only there (60_exceptions.md section 8).
The inputs are the model's form, log 2. -/
def Obligations.InputsReachOnlyTheirReaders : Prop :=
  ∀ (i : Instr) (s t : State) (k k' : BitVec 16) (r r' : Byte) (l : List Inputs),
    (k = k' ∨ ¬ i.readsKeys) → (r = r' ∨ ¬ i.readsRnd) →
    exec i { s with inputs := ⟨k, r⟩ :: l } = .next t →
    t.inputs = ⟨k, r⟩ :: l ∧ exec i { s with inputs := ⟨k', r'⟩ :: l } = .next { t with inputs := ⟨k', r'⟩ :: l }

/-- A step uses the inputs the driver presents, and those only: `State.input` is the head of the schedule, and the step takes
it off (60_exceptions.md section 8). The form is the model's, log 2. -/
def Obligations.StepTakesTheDriversInputs : Prop :=
  ∀ (s t : State) (k : BitVec 16) (r : Byte), s.stepPort k r = .next t →
    t.inputs = s.inputs ∧ ({ s with inputs := ⟨k, r⟩ :: s.inputs } : State).input = ⟨k, r⟩

/-- Every step keeps the invariant: the canonical form of memory, `pc` <= 0x10FE, stack entries <= 4096 (10_state.md sections
3 and 9); a legal latch that names the `pc` it stopped at, with `changed` = 0 (60_exceptions.md sections 1, 3 and 4; D16,
D17, log 11); the load phase open only in the pristine state (70_reset_and_hazards.md section 2; D25, log 12). -/
def Obligations.StepKeepsInvariant : Prop :=
  ∀ s t : State, s.Inv → step s = .next t → t.Inv

/-- The reset state meets the invariant (10_state.md section 9). -/
def Obligations.ResetMeetsInvariant : Prop := State.reset.Inv

/-- Every move of the driver keeps the invariant, so every reachable state meets it (10_state.md section 9; 60_exceptions.md
section 8). The moves reset and load and the load-phase clause are D31 and D25 (70_reset_and_hazards.md sections 1 and 2;
log 12); the latch clause is D16 and D17 (60_exceptions.md sections 1, 3 and 4; log 11). -/
def Obligations.DriverMovesKeepInvariant : Prop :=
  ∀ (m : DriverMove) (s t : State), s.Inv → drive m s = .next t → t.Inv

/-! ### Reset, load, outputs -/

/-- The state after reset, with `FONT` the instance's parameter, in `State.reset` the default (10_state.md section 9). The
default bytes are D3, log 4; the latch and its reset value are D16, log 11. ResetPortIsTotal says the same for every
`FONT`. -/
def Obligations.ResetState : Prop :=
  (∀ (a : Nat) (h : a < 80), State.reset.byte a = State.reset.font[a]) ∧
  (∀ a : Nat, 80 ≤ a → State.reset.byte a = 0) ∧
  (∀ z : Reg, State.reset.reg z = 0) ∧ State.reset.i = 0x0200 ∧ State.reset.pc = 0x0200 ∧
  (∀ (k : Nat) (h : k < 16), State.reset.stack[k] = 0) ∧ State.reset.sp = 0 ∧ State.reset.dt = 0 ∧ State.reset.st = 0 ∧
  (∀ (y : Fin 32) (x : Fin 64), State.reset.fb.cell y x = false) ∧ State.reset.changed = false ∧
  State.reset.fault = none

/-- The reset port gives the pristine state from any state, a latched fault included (70_reset_and_hazards.md section 1): of
R20's list all is as in `State.reset` but memory, which holds the instance's own `FONT`, whatever it is, and zero beyond.
The instance keeps its parameters (D3, D9, logs 4, 3). D31, log 12. -/
def Obligations.ResetPortIsTotal : Prop :=
  ∀ s : State, drive .reset s = .next s.resetPort ∧ KeepsRest [.mem] State.reset s.resetPort ∧
    (∀ (a : Nat) (h : a < 80), s.resetPort.byte a = s.font[a]) ∧ (∀ a : Nat, 80 ≤ a → s.resetPort.byte a = 0) ∧
    s.resetPort.font = s.font ∧ s.resetPort.addiThreshold = s.addiThreshold ∧ s.resetPort.fault = none ∧
    s.resetPort.loadOpen = true

/-- The load port places the ROM at 0x200, drops what is beyond 3584 bytes, changes nothing else, and is legal once and only
before the first step (60_exceptions.md section 8; 70_reset_and_hazards.md section 2). D25, log 12. -/
def Obligations.LoadPlacesTheRomOnce : Prop :=
  (∀ (s : State) (rom : List Byte), s.loadOpen = true → s.memWf = true →
    ∃ t, s.loadPort rom = .next t ∧
      (∀ (k : Nat) (h : k < rom.length), k < 3584 → t.byte (0x200 + k) = rom[k]) ∧
      OtherBytesSame 0x200 (min rom.length 3584) s t ∧ KeepsRest [.mem] s t ∧
      ∀ again : List Byte, t.loadPort again = .refused .loadNotPristine) ∧
  (∀ (s t : State) (rom : List Byte), step s = .next t → t.loadPort rom = .refused .loadNotPristine)

/-- The snapshot at the end of a step: the framebuffer after the handler, `changed`, and `tone` = 1 exactly when `st` > 0
after the tick; on a faulting step it shows the unchanged framebuffer and `changed_out` = 0, and the fault outputs show the
latch, all 0 when there is none (40_step_fetch_decode.md section 5; 60_exceptions.md sections 1 and 8). `tone` after the
tick is D20, log 16; the fault outputs and their values are D17, log 11. -/
def Obligations.SnapshotOfAStep : Prop :=
  ∀ s t : State, step s = .next t →
    t.snapshot.fbOut = t.fb ∧ t.snapshot.changedOut = t.changed ∧ (t.snapshot.tone = true ↔ 0 < t.st.toNat) ∧
    (t.fault = none → t.faultOutputs = ⟨0, 0, 0⟩) ∧
    (∀ r, t.fault = some r → t.faultOutputs = r ∧ t.snapshot.changedOut = false ∧ t.snapshot.fbOut = s.fb)

/-! ### Control transfer -/

/-- R140: return. With `sp` = 0 it raises StackUnderflow with nothing else changed; otherwise `sp` is decremented and `pc` is
the entry at the decremented `sp`, which is not cleared. -/
def Obligations.ReturnPopsTheStack : Prop :=
  ∀ s : State,
    (s.sp = 0 → exec .ret s = .next (s.takeFault .stackUnderflow) ∧
      OnlyChanges [.fault] s (s.takeFault .stackUnderflow)) ∧
    (∀ h : 0 < s.sp.val, ∃ t, exec .ret s = .next t ∧ t.sp.val = s.sp.val - 1 ∧
      t.pc = s.stack[s.sp.val - 1]'(by have := s.sp.isLt; omega) ∧ OnlyChanges [.sp, .pc] s t)

/-- R141: jump absolute. -/
def Obligations.JumpSetsPc : Prop :=
  ∀ (s : State) (nnn : Addr12), ∃ t, exec (.jump nnn) s = .next t ∧ t.pc.toNat = nnn.toNat ∧ OnlyChanges [.pc] s t

/-- R142: call. With `sp` = 16 it raises StackOverflow with nothing else changed; otherwise it pushes the address after the
call at the old `sp` and jumps. -/
def Obligations.CallPushesTheReturnAddress : Prop :=
  ∀ (s : State) (nnn : Addr12),
    (s.sp = 16 → exec (.call nnn) s = .next (s.takeFault .stackOverflow) ∧
      OnlyChanges [.fault] s (s.takeFault .stackOverflow)) ∧
    (∀ h : s.sp.val < 16, ∃ t, exec (.call nnn) s = .next t ∧ t.sp.val = s.sp.val + 1 ∧
      t.stack[s.sp.val] = s.pc + 2 ∧ (∀ (k : Nat) (hk : k < 16), k ≠ s.sp.val → t.stack[k] = s.stack[k]) ∧
      t.pc.toNat = nnn.toNat ∧ OnlyChanges [.stack, .sp, .pc] s t)

/-- Call then return restores `pc` to the instruction after the call and `sp` to its value, whatever runs between them as
long as the stack is then as the call left it (95_test_vectors.md S6; 41_control_flow.md sections 1 and 3). -/
def Obligations.CallThenReturnRoundTrips : Prop :=
  ∀ (s t u : State) (nnn : Addr12), s.sp.val < 16 → exec (.call nnn) s = .next t → u.sp = t.sp → u.stack = t.stack →
    ∃ v, exec .ret u = .next v ∧ v.pc = s.pc + 2 ∧ v.sp = s.sp

/-- R143, R144: the skips that compare with an immediate. -/
def Obligations.SkipsCompareImmediate : Prop :=
  ∀ (s : State) (x : Reg) (kk : Byte),
    (∃ t, exec (.skipEqImm x kk) s = .next t ∧ (s.reg x = kk → t.pc = s.pc + 4) ∧ (s.reg x ≠ kk → t.pc = s.pc + 2) ∧
      OnlyChanges [.pc] s t) ∧
    (∃ t, exec (.skipNeImm x kk) s = .next t ∧ (s.reg x ≠ kk → t.pc = s.pc + 4) ∧ (s.reg x = kk → t.pc = s.pc + 2) ∧
      OnlyChanges [.pc] s t)

/-- R145, R146: the skips that compare two registers. -/
def Obligations.SkipsCompareRegisters : Prop :=
  ∀ (s : State) (x y : Reg),
    (∃ t, exec (.skipEqReg x y) s = .next t ∧ (s.reg x = s.reg y → t.pc = s.pc + 4) ∧
      (s.reg x ≠ s.reg y → t.pc = s.pc + 2) ∧ OnlyChanges [.pc] s t) ∧
    (∃ t, exec (.skipNeReg x y) s = .next t ∧ (s.reg x ≠ s.reg y → t.pc = s.pc + 4) ∧
      (s.reg x = s.reg y → t.pc = s.pc + 2) ∧ OnlyChanges [.pc] s t)

/-- jump-with-offset: absolute, `NNN + V[0]`, not reduced (41_control_flow.md section 5). D22, log 15. -/
def Obligations.JumpOffsetIsAbsolute : Prop :=
  ∀ (s : State) (nnn : Addr12), ∃ t, exec (.jumpOffset nnn) s = .next t ∧
    t.pc.toNat = nnn.toNat + (s.reg 0).toNat ∧ OnlyChanges [.pc] s t

/-! ### Registers and ALU -/

/-- R160, R161: load-immediate and add-immediate; neither writes a flag. -/
def Obligations.ImmediateForms : Prop :=
  ∀ (s : State) (x : Reg) (kk : Byte),
    (∃ t, exec (.loadImm x kk) s = .next t ∧ t.reg x = kk ∧ t.pc = s.pc + 2 ∧ OtherRegsSame [x] s t ∧
      OnlyChanges [.v, .pc] s t) ∧
    (∃ t, exec (.addImm x kk) s = .next t ∧ (t.reg x).toNat = ((s.reg x).toNat + kk.toNat) % 256 ∧ t.pc = s.pc + 2 ∧
      OtherRegsSame [x] s t ∧ OnlyChanges [.v, .pc] s t)

/-- R162 to R165: move, or, and, xor, bit by bit; none writes a flag. -/
def Obligations.MoveAndLogic : Prop :=
  ∀ (s : State) (x y : Reg),
    (∃ t, exec (.move x y) s = .next t ∧ t.reg x = s.reg y ∧ t.pc = s.pc + 2 ∧ OtherRegsSame [x] s t ∧
      OnlyChanges [.v, .pc] s t) ∧
    (∃ t, exec (.orReg x y) s = .next t ∧
      (∀ k < 8, (t.reg x).getLsbD k = ((s.reg x).getLsbD k || (s.reg y).getLsbD k)) ∧ t.pc = s.pc + 2 ∧
      OtherRegsSame [x] s t ∧ OnlyChanges [.v, .pc] s t) ∧
    (∃ t, exec (.andReg x y) s = .next t ∧
      (∀ k < 8, (t.reg x).getLsbD k = ((s.reg x).getLsbD k && (s.reg y).getLsbD k)) ∧ t.pc = s.pc + 2 ∧
      OtherRegsSame [x] s t ∧ OnlyChanges [.v, .pc] s t) ∧
    (∃ t, exec (.xorReg x y) s = .next t ∧
      (∀ k < 8, (t.reg x).getLsbD k = ((s.reg x).getLsbD k ^^ (s.reg y).getLsbD k)) ∧ t.pc = s.pc + 2 ∧
      OtherRegsSame [x] s t ∧ OnlyChanges [.v, .pc] s t)

/-- add registers: the sum modulo 256, and the carry in `V[15]`, written last (42_alu.md section 4). D11, log 10. -/
def Obligations.AddSetsCarry : Prop :=
  ∀ (s : State) (x y : Reg), ∃ t, exec (.addReg x y) s = .next t ∧
    (x ≠ 15 → (t.reg x).toNat = ((s.reg x).toNat + (s.reg y).toNat) % 256) ∧
    t.reg 15 = (if 255 < (s.reg x).toNat + (s.reg y).toNat then 1 else 0) ∧ t.pc = s.pc + 2 ∧
    OtherRegsSame [x, 15] s t ∧ OnlyChanges [.v, .pc] s t

/-- sub and sub-reverse: the difference modulo 256, and the strict unsigned comparison in `V[15]`, written last (42_alu.md
section 4). D11, log 10. -/
def Obligations.SubtractionsSetStrictFlag : Prop :=
  ∀ (s : State) (x y : Reg),
    (∃ t, exec (.subReg x y) s = .next t ∧
      (x ≠ 15 → (t.reg x).toNat = ((s.reg x).toNat + 256 - (s.reg y).toNat) % 256) ∧
      t.reg 15 = (if (s.reg y).toNat < (s.reg x).toNat then 1 else 0) ∧ t.pc = s.pc + 2 ∧
      OtherRegsSame [x, 15] s t ∧ OnlyChanges [.v, .pc] s t) ∧
    (∃ t, exec (.subReverse x y) s = .next t ∧
      (x ≠ 15 → (t.reg x).toNat = ((s.reg y).toNat + 256 - (s.reg x).toNat) % 256) ∧
      t.reg 15 = (if (s.reg x).toNat < (s.reg y).toNat then 1 else 0) ∧ t.pc = s.pc + 2 ∧
      OtherRegsSame [x, 15] s t ∧ OnlyChanges [.v, .pc] s t)

/-- The shifts: by one bit, logical, of `V[X]` whatever `Y` is, with the bit shifted out in `V[15]`, written last (42_alu.md
section 4). D11, log 10. -/
def Obligations.ShiftsMoveTheBitToTheFlag : Prop :=
  ∀ (s : State) (x y : Reg),
    (∃ t, exec (.shiftRight x y) s = .next t ∧ (x ≠ 15 → (t.reg x).toNat = (s.reg x).toNat / 2) ∧
      (t.reg 15).toNat = (s.reg x).toNat % 2 ∧ t.pc = s.pc + 2 ∧ OtherRegsSame [x, 15] s t ∧
      OnlyChanges [.v, .pc] s t) ∧
    (∃ t, exec (.shiftLeft x y) s = .next t ∧ (x ≠ 15 → (t.reg x).toNat = (s.reg x).toNat * 2 % 256) ∧
      (t.reg 15).toNat = (s.reg x).toNat / 128 ∧ t.pc = s.pc + 2 ∧ OtherRegsSame [x, 15] s t ∧
      OnlyChanges [.v, .pc] s t)

/-- random-masked: `KK and r`, `r` the step's random byte, whatever it is; when the driver presents `r`, that byte (42_alu.md
section 5). The form of the input is the model's, log 2. -/
def Obligations.RandomIsMasked : Prop :=
  ∀ (s : State) (x : Reg) (kk : Byte),
    (∃ t, exec (.randomMasked x kk) s = .next t ∧ t.reg x = kk &&& s.input.rnd ∧ t.pc = s.pc + 2 ∧
      OtherRegsSame [x] s t ∧ OnlyChanges [.v, .pc] s t) ∧
    (∀ k r l, s.inputs = ⟨k, r⟩ :: l → s.input.rnd = r)

/-! ### Index register and memory -/

/-- R180, R182: load-index-immediate and load-font-sprite-address, the whole byte times 5. -/
def Obligations.IndexLoads : Prop :=
  (∀ (s : State) (nnn : Addr12), ∃ t, exec (.loadIndexImm nnn) s = .next t ∧ t.i.toNat = nnn.toNat ∧ t.pc = s.pc + 2 ∧
    OnlyChanges [.i, .pc] s t) ∧
  (∀ (s : State) (x : Reg), ∃ t, exec (.loadFontAddr x) s = .next t ∧ t.i.toNat = (s.reg x).toNat * 5 ∧
    t.pc = s.pc + 2 ∧ OnlyChanges [.i, .pc] s t)

/-- add-to-index: the exact sum in `I` and, in `V[15]`, whether it exceeds the instance's threshold, whatever that is; a sum
above 65535 is the fault of code 5 with nothing else changed (43_index_memory.md section 1). D9, D10, D11, D17, logs 3,
9, 10, 11. -/
def Obligations.AddToIndexIsExact : Prop :=
  ∀ (s : State) (x : Reg),
    (s.i.toNat + (s.reg x).toNat ≤ 65535 → ∃ t, exec (.addToIndex x) s = .next t ∧
      t.i.toNat = s.i.toNat + (s.reg x).toNat ∧
      t.reg 15 = (if s.addiThreshold < s.i.toNat + (s.reg x).toNat then 1 else 0) ∧ t.pc = s.pc + 2 ∧
      OtherRegsSame [15] s t ∧ OnlyChanges [.i, .v, .pc] s t) ∧
    (65535 < s.i.toNat + (s.reg x).toNat → ∃ t r, exec (.addToIndex x) s = .next t ∧ t.fault = some r ∧ r.code = 5 ∧
      r.fpc = s.pc ∧ r.info.toNat = s.i.toNat + (s.reg x).toNat ∧ OnlyChanges [.fault] s t)

/-- R183: store-bcd: hundreds, tens and ones at `I`, `I + 1`, `I + 2`, the whole range checked first. -/
def Obligations.StoreBcdWritesDigits : Prop :=
  ∀ (s : State) (x : Reg),
    (s.memWf = true → s.i.toNat + 2 ≤ 4095 → ∃ t, exec (.storeBcd x) s = .next t ∧
      (t.byte (s.dataAddress 0)).toNat = (s.reg x).toNat / 100 ∧
      (t.byte (s.dataAddress 1)).toNat = (s.reg x).toNat / 10 % 10 ∧
      (t.byte (s.dataAddress 2)).toNat = (s.reg x).toNat % 10 ∧
      OtherBytesSame (s.dataAddress 0) 3 s t ∧ t.pc = s.pc + 2 ∧ OnlyChanges [.mem, .pc] s t) ∧
    (4095 < s.i.toNat + 2 → ∃ a : BitVec 17, a.toNat = max s.i.toNat 4096 ∧
      exec (.storeBcd x) s = .next (s.takeFault (.dataRange a)) ∧ OnlyChanges [.fault] s (s.takeFault (.dataRange a)))

/-- R184: register-dump: `V[0]` to `V[X]` at `I` to `I + X`, `I` unchanged, the whole range checked first. -/
def Obligations.RegisterDumpStoresTheRange : Prop :=
  ∀ (s : State) (x : Reg),
    (s.memWf = true → s.i.toNat + x.toNat ≤ 4095 → ∃ t, exec (.regDump x) s = .next t ∧
      (∀ z : Reg, z.toNat ≤ x.toNat → t.byte (s.dataAddress z.toNat) = s.reg z) ∧
      OtherBytesSame (s.dataAddress 0) (x.toNat + 1) s t ∧ t.pc = s.pc + 2 ∧ OnlyChanges [.mem, .pc] s t) ∧
    (4095 < s.i.toNat + x.toNat → ∃ a : BitVec 17, a.toNat = max s.i.toNat 4096 ∧
      exec (.regDump x) s = .next (s.takeFault (.dataRange a)) ∧ OnlyChanges [.fault] s (s.takeFault (.dataRange a)))

/-- R185: register-load: `V[0]` to `V[X]` from `I` to `I + X`, registers above `X` and `I` unchanged, the whole range checked
first. -/
def Obligations.RegisterLoadReadsTheRange : Prop :=
  ∀ (s : State) (x : Reg),
    (s.i.toNat + x.toNat ≤ 4095 → ∃ t, exec (.regLoad x) s = .next t ∧
      (∀ z : Reg, z.toNat ≤ x.toNat → t.reg z = s.byte (s.dataAddress z.toNat)) ∧
      (∀ z : Reg, x.toNat < z.toNat → t.reg z = s.reg z) ∧ t.pc = s.pc + 2 ∧ OnlyChanges [.v, .pc] s t) ∧
    (4095 < s.i.toNat + x.toNat → ∃ a : BitVec 17, a.toNat = max s.i.toNat 4096 ∧
      exec (.regLoad x) s = .next (s.takeFault (.dataRange a)) ∧ OnlyChanges [.fault] s (s.takeFault (.dataRange a)))

/-- Dump then load round-trips: any registers loaded back from where they were dumped are as they were (43_index_memory.md
section 2). -/
def Obligations.DumpThenLoadRoundTrips : Prop :=
  ∀ (s t u : State) (x : Reg), s.memWf = true → s.i.toNat + x.toNat ≤ 4095 → exec (.regDump x) s = .next t →
    u.i = t.i → (∀ a : Nat, u.byte a = t.byte a) →
    ∃ v, exec (.regLoad x) u = .next v ∧ (∀ z : Reg, z.toNat ≤ x.toNat → v.reg z = s.reg z) ∧
      ∀ a : Nat, v.byte a = t.byte a

/-- A store is seen by the very next fetch: a register-dump onto the two bytes after itself makes `V[0] ++ V[1]` the word the
next step fetches, and what it decodes to is what that step runs (20_memory.md section 8). -/
def Obligations.StoreBecomesNextInstruction : Prop :=
  ∀ (s t : State) (x : Reg), s.Inv → s.Runs (.regDump x) → 1 ≤ x.toNat → s.i = s.pc + 2 →
    s.i.toNat + x.toNat ≤ 4095 → step s = .next t →
    t.wordAtPc = wordOfBytes (s.reg 0) (s.reg 1) ∧
    ∀ i, decodeWord (wordOfBytes (s.reg 0) (s.reg 1)) = .ok i → t.Runs i

/-! ### Display -/

/-- R190: clear-screen. -/
def Obligations.ClearScreenZeroesEveryCell : Prop :=
  ∀ s : State, ∃ t, exec .clearScreen s = .next t ∧ (∀ (y : Fin 32) (x : Fin 64), t.fb.cell y x = false) ∧
    t.changed = true ∧ t.pc = s.pc + 2 ∧ OnlyChanges [.fb, .changed, .pc] s t

/-- draw-sprite: exactly the cells under a 1 bit of the sprite are flipped, wrapped per pixel; `V[15]`, written last, is 1
exactly when one of them was 1; with a row out of range it is the fault of code 4 with nothing else changed; no rows never
fault (44_display.md section 2). D4, D5, D6, D11, D17, D32, logs 6, 10, 11, 16. -/
def Obligations.DrawSpriteXorsTheCells : Prop :=
  ∀ (s : State) (x y : Reg) (n : Nibble),
    ((n = 0 ∨ s.i.toNat + n.toNat - 1 ≤ 4095) → ∃ t, exec (.drawSprite x y n) s = .next t ∧
      (∀ (py : Fin 32) (px : Fin 64),
        (s.SpriteCovers (s.reg x) (s.reg y) n.toNat py px → t.fb.cell py px = !s.fb.cell py px) ∧
        (¬ s.SpriteCovers (s.reg x) (s.reg y) n.toNat py px → t.fb.cell py px = s.fb.cell py px)) ∧
      ((∃ py px, s.SpriteCovers (s.reg x) (s.reg y) n.toNat py px ∧ s.fb.cell py px = true) → t.reg 15 = 1) ∧
      ((¬ ∃ py px, s.SpriteCovers (s.reg x) (s.reg y) n.toNat py px ∧ s.fb.cell py px = true) → t.reg 15 = 0) ∧
      t.changed = true ∧ t.pc = s.pc + 2 ∧ OtherRegsSame [15] s t ∧ OnlyChanges [.fb, .v, .changed, .pc] s t) ∧
    ((n ≠ 0 ∧ 4095 < s.i.toNat + n.toNat - 1) → ∃ t r, exec (.drawSprite x y n) s = .next t ∧ t.fault = some r ∧
      r.code = 4 ∧ r.fpc = s.pc ∧ r.info.toNat = max s.i.toNat 4096 ∧ OnlyChanges [.fault] s t)

/-- Drawing the same sprite at the same place twice gives the framebuffer back, with `changed` raised both times; the second
draw collides exactly when some 1 bit of the sprite falls on a cell that was 0 before the first (44_display.md section 2;
95_test_vectors.md S5). The second draw may be made from any state with the first one's framebuffer and the same sprite
and coordinates. Which cells a sprite covers is D4, D5, D6 (log 6); the flag written last is D11 (log 10); `N` = 0 is D32
(log 16). -/
def Obligations.DrawTwiceRestores : Prop :=
  ∀ (s t u : State) (x y x' y' : Reg) (n : Nibble), (n = 0 ∨ s.i.toNat + n.toNat - 1 ≤ 4095) →
    exec (.drawSprite x y n) s = .next t →
    u.fb = t.fb → u.i = s.i → (∀ a : Nat, u.byte a = s.byte a) → u.reg x' = s.reg x → u.reg y' = s.reg y →
    ∃ v, exec (.drawSprite x' y' n) u = .next v ∧ v.fb = s.fb ∧ t.changed = true ∧ v.changed = true ∧
      (v.reg 15 = 1 ↔ ∃ py px, s.SpriteCovers (s.reg x) (s.reg y) n.toNat py px ∧ s.fb.cell py px = false)

/-! ### Keys and timers -/

/-- The two key skips: the key number is the register's value, the keys are the step's input, whatever it is; a value above
15 is the fault of code 6 with nothing else changed (45_timers_keys.md section 1). D13, D17, logs 2, 8, 11. -/
def Obligations.KeySkipsReadTheKeypad : Prop :=
  ∀ (s : State) (x : Reg),
    ((s.reg x).toNat ≤ 15 →
      (∃ t, exec (.skipKeyPressed x) s = .next t ∧
        t.pc = (if s.input.keys.getLsbD (s.reg x).toNat then s.pc + 4 else s.pc + 2) ∧ OnlyChanges [.pc] s t) ∧
      (∃ t, exec (.skipKeyNotPressed x) s = .next t ∧
        t.pc = (if s.input.keys.getLsbD (s.reg x).toNat then s.pc + 2 else s.pc + 4) ∧ OnlyChanges [.pc] s t)) ∧
    (15 < (s.reg x).toNat → ∃ t r, exec (.skipKeyPressed x) s = .next t ∧ exec (.skipKeyNotPressed x) s = .next t ∧
      t.fault = some r ∧ r.code = 6 ∧ r.fpc = s.pc ∧ r.info.toNat = (s.reg x).toNat ∧ OnlyChanges [.fault] s t)

/-- wait-for-key: the least held key of the step's input, whatever it is; with no key held `V[X]` keeps its value; `pc` moves
on in both cases (45_timers_keys.md section 3). D12, logs 2, 8. -/
def Obligations.WaitForKeySamplesTheLowest : Prop :=
  ∀ (s : State) (x : Reg), ∃ t, exec (.waitForKey x) s = .next t ∧
    (∀ k : Nat, k < 16 → s.input.keys.getLsbD k = true → (∀ j < k, s.input.keys.getLsbD j = false) →
      (t.reg x).toNat = k) ∧
    (s.input.keys = 0 → t.reg x = s.reg x) ∧ t.pc = s.pc + 2 ∧ OtherRegsSame [x] s t ∧ OnlyChanges [.v, .pc] s t

/-- read-delay-timer reads the value before the step's tick; after the step `dt` is one less, if it was not 0
(45_timers_keys.md section 2). -/
def Obligations.ReadDelayTimerBeforeTick : Prop :=
  ∀ (s : State) (x : Reg), ∃ t, exec (.readDelayTimer x) s = .next t ∧ t.reg x = s.dt ∧ t.pc = s.pc + 2 ∧
    OtherRegsSame [x] s t ∧ OnlyChanges [.v, .pc] s t ∧
    (s.fault = none → t.endStep.reg x = s.dt ∧ t.endStep.dt = if s.dt = 0 then 0 else s.dt - 1)

/-- set-delay-timer and set-sound-timer: the timer takes `V[X]`, and the same step's tick leaves one less
(45_timers_keys.md section 4). -/
def Obligations.SetTimersThenTick : Prop :=
  ∀ (s : State) (x : Reg),
    (∃ t, exec (.setDelayTimer x) s = .next t ∧ t.dt = s.reg x ∧ t.pc = s.pc + 2 ∧ OnlyChanges [.dt, .pc] s t ∧
      (s.fault = none → t.endStep.dt.toNat = (s.reg x).toNat - 1)) ∧
    (∃ t, exec (.setSoundTimer x) s = .next t ∧ t.st = s.reg x ∧ t.pc = s.pc + 2 ∧ OnlyChanges [.st, .pc] s t ∧
      (s.fault = none → t.endStep.st.toNat = (s.reg x).toNat - 1))
end

