-- ==== Sys2Proof/Laws/State.lean ====
section
/-! SUPPORT. One lemma per field per update of the state, true by rfl, so that no later proof unfolds a record update; and
what reading a register gives after each update. -/

namespace Sys2Proof.Machine

open Sys2Proof

/-! ### setReg -/

@[simp] theorem State.setReg_mem (s : State) (x : Reg) (b : Byte) : (s.setReg x b).mem = s.mem := rfl
@[simp] theorem State.setReg_v (s : State) (x : Reg) (b : Byte) : (s.setReg x b).v = s.v.set x.toNat b x.isLt := rfl
@[simp] theorem State.setReg_i (s : State) (x : Reg) (b : Byte) : (s.setReg x b).i = s.i := rfl
@[simp] theorem State.setReg_pc (s : State) (x : Reg) (b : Byte) : (s.setReg x b).pc = s.pc := rfl
@[simp] theorem State.setReg_stack (s : State) (x : Reg) (b : Byte) : (s.setReg x b).stack = s.stack := rfl
@[simp] theorem State.setReg_sp (s : State) (x : Reg) (b : Byte) : (s.setReg x b).sp = s.sp := rfl
@[simp] theorem State.setReg_dt (s : State) (x : Reg) (b : Byte) : (s.setReg x b).dt = s.dt := rfl
@[simp] theorem State.setReg_st (s : State) (x : Reg) (b : Byte) : (s.setReg x b).st = s.st := rfl
@[simp] theorem State.setReg_fb (s : State) (x : Reg) (b : Byte) : (s.setReg x b).fb = s.fb := rfl
@[simp] theorem State.setReg_changed (s : State) (x : Reg) (b : Byte) : (s.setReg x b).changed = s.changed := rfl
@[simp] theorem State.setReg_fault (s : State) (x : Reg) (b : Byte) : (s.setReg x b).fault = s.fault := rfl
@[simp] theorem State.setReg_addiThreshold (s : State) (x : Reg) (b : Byte) : (s.setReg x b).addiThreshold = s.addiThreshold := rfl
@[simp] theorem State.setReg_font (s : State) (x : Reg) (b : Byte) : (s.setReg x b).font = s.font := rfl
@[simp] theorem State.setReg_inputs (s : State) (x : Reg) (b : Byte) : (s.setReg x b).inputs = s.inputs := rfl
@[simp] theorem State.setReg_draws (s : State) (x : Reg) (b : Byte) : (s.setReg x b).draws = s.draws := rfl
@[simp] theorem State.setReg_loadOpen (s : State) (x : Reg) (b : Byte) : (s.setReg x b).loadOpen = s.loadOpen := rfl
@[simp] theorem State.setReg_byte (s : State) (x : Reg) (b : Byte) (k : Nat) : (s.setReg x b).byte k = s.byte k := rfl
@[simp] theorem State.setReg_memWf (s : State) (x : Reg) (b : Byte) : (s.setReg x b).memWf = s.memWf := rfl
@[simp] theorem State.setReg_input (s : State) (x : Reg) (b : Byte) : (s.setReg x b).input = s.input := rfl
@[simp] theorem State.setReg_keyHeld (s : State) (x : Reg) (b : Byte) (k : Nat) : (s.setReg x b).keyHeld k = s.keyHeld k := rfl

/-! ### setFlag -/

@[simp] theorem State.setFlag_mem (s : State) (f : Bool) : (s.setFlag f).mem = s.mem := rfl
@[simp] theorem State.setFlag_v (s : State) (f : Bool) : (s.setFlag f).v = s.v.set flagReg.toNat (flagByte f) flagReg.isLt := rfl
@[simp] theorem State.setFlag_i (s : State) (f : Bool) : (s.setFlag f).i = s.i := rfl
@[simp] theorem State.setFlag_pc (s : State) (f : Bool) : (s.setFlag f).pc = s.pc := rfl
@[simp] theorem State.setFlag_stack (s : State) (f : Bool) : (s.setFlag f).stack = s.stack := rfl
@[simp] theorem State.setFlag_sp (s : State) (f : Bool) : (s.setFlag f).sp = s.sp := rfl
@[simp] theorem State.setFlag_dt (s : State) (f : Bool) : (s.setFlag f).dt = s.dt := rfl
@[simp] theorem State.setFlag_st (s : State) (f : Bool) : (s.setFlag f).st = s.st := rfl
@[simp] theorem State.setFlag_fb (s : State) (f : Bool) : (s.setFlag f).fb = s.fb := rfl
@[simp] theorem State.setFlag_changed (s : State) (f : Bool) : (s.setFlag f).changed = s.changed := rfl
@[simp] theorem State.setFlag_fault (s : State) (f : Bool) : (s.setFlag f).fault = s.fault := rfl
@[simp] theorem State.setFlag_addiThreshold (s : State) (f : Bool) : (s.setFlag f).addiThreshold = s.addiThreshold := rfl
@[simp] theorem State.setFlag_font (s : State) (f : Bool) : (s.setFlag f).font = s.font := rfl
@[simp] theorem State.setFlag_inputs (s : State) (f : Bool) : (s.setFlag f).inputs = s.inputs := rfl
@[simp] theorem State.setFlag_draws (s : State) (f : Bool) : (s.setFlag f).draws = s.draws := rfl
@[simp] theorem State.setFlag_loadOpen (s : State) (f : Bool) : (s.setFlag f).loadOpen = s.loadOpen := rfl
@[simp] theorem State.setFlag_byte (s : State) (f : Bool) (k : Nat) : (s.setFlag f).byte k = s.byte k := rfl
@[simp] theorem State.setFlag_memWf (s : State) (f : Bool) : (s.setFlag f).memWf = s.memWf := rfl
@[simp] theorem State.setFlag_input (s : State) (f : Bool) : (s.setFlag f).input = s.input := rfl
@[simp] theorem State.setFlag_keyHeld (s : State) (f : Bool) (k : Nat) : (s.setFlag f).keyHeld k = s.keyHeld k := rfl

/-! ### setIndex -/

@[simp] theorem State.setIndex_mem (s : State) (a : Word) : (s.setIndex a).mem = s.mem := rfl
@[simp] theorem State.setIndex_v (s : State) (a : Word) : (s.setIndex a).v = s.v := rfl
@[simp] theorem State.setIndex_i (s : State) (a : Word) : (s.setIndex a).i = a := rfl
@[simp] theorem State.setIndex_pc (s : State) (a : Word) : (s.setIndex a).pc = s.pc := rfl
@[simp] theorem State.setIndex_stack (s : State) (a : Word) : (s.setIndex a).stack = s.stack := rfl
@[simp] theorem State.setIndex_sp (s : State) (a : Word) : (s.setIndex a).sp = s.sp := rfl
@[simp] theorem State.setIndex_dt (s : State) (a : Word) : (s.setIndex a).dt = s.dt := rfl
@[simp] theorem State.setIndex_st (s : State) (a : Word) : (s.setIndex a).st = s.st := rfl
@[simp] theorem State.setIndex_fb (s : State) (a : Word) : (s.setIndex a).fb = s.fb := rfl
@[simp] theorem State.setIndex_changed (s : State) (a : Word) : (s.setIndex a).changed = s.changed := rfl
@[simp] theorem State.setIndex_fault (s : State) (a : Word) : (s.setIndex a).fault = s.fault := rfl
@[simp] theorem State.setIndex_addiThreshold (s : State) (a : Word) : (s.setIndex a).addiThreshold = s.addiThreshold := rfl
@[simp] theorem State.setIndex_font (s : State) (a : Word) : (s.setIndex a).font = s.font := rfl
@[simp] theorem State.setIndex_inputs (s : State) (a : Word) : (s.setIndex a).inputs = s.inputs := rfl
@[simp] theorem State.setIndex_draws (s : State) (a : Word) : (s.setIndex a).draws = s.draws := rfl
@[simp] theorem State.setIndex_loadOpen (s : State) (a : Word) : (s.setIndex a).loadOpen = s.loadOpen := rfl
@[simp] theorem State.setIndex_byte (s : State) (a : Word) (k : Nat) : (s.setIndex a).byte k = s.byte k := rfl
@[simp] theorem State.setIndex_memWf (s : State) (a : Word) : (s.setIndex a).memWf = s.memWf := rfl
@[simp] theorem State.setIndex_reg (s : State) (a : Word) (z : Reg) : (s.setIndex a).reg z = s.reg z := rfl
@[simp] theorem State.setIndex_input (s : State) (a : Word) : (s.setIndex a).input = s.input := rfl
@[simp] theorem State.setIndex_keyHeld (s : State) (a : Word) (k : Nat) : (s.setIndex a).keyHeld k = s.keyHeld k := rfl

/-! ### setPc -/

@[simp] theorem State.setPc_mem (s : State) (a : Word) : (s.setPc a).mem = s.mem := rfl
@[simp] theorem State.setPc_v (s : State) (a : Word) : (s.setPc a).v = s.v := rfl
@[simp] theorem State.setPc_i (s : State) (a : Word) : (s.setPc a).i = s.i := rfl
@[simp] theorem State.setPc_pc (s : State) (a : Word) : (s.setPc a).pc = a := rfl
@[simp] theorem State.setPc_stack (s : State) (a : Word) : (s.setPc a).stack = s.stack := rfl
@[simp] theorem State.setPc_sp (s : State) (a : Word) : (s.setPc a).sp = s.sp := rfl
@[simp] theorem State.setPc_dt (s : State) (a : Word) : (s.setPc a).dt = s.dt := rfl
@[simp] theorem State.setPc_st (s : State) (a : Word) : (s.setPc a).st = s.st := rfl
@[simp] theorem State.setPc_fb (s : State) (a : Word) : (s.setPc a).fb = s.fb := rfl
@[simp] theorem State.setPc_changed (s : State) (a : Word) : (s.setPc a).changed = s.changed := rfl
@[simp] theorem State.setPc_fault (s : State) (a : Word) : (s.setPc a).fault = s.fault := rfl
@[simp] theorem State.setPc_addiThreshold (s : State) (a : Word) : (s.setPc a).addiThreshold = s.addiThreshold := rfl
@[simp] theorem State.setPc_font (s : State) (a : Word) : (s.setPc a).font = s.font := rfl
@[simp] theorem State.setPc_inputs (s : State) (a : Word) : (s.setPc a).inputs = s.inputs := rfl
@[simp] theorem State.setPc_draws (s : State) (a : Word) : (s.setPc a).draws = s.draws := rfl
@[simp] theorem State.setPc_loadOpen (s : State) (a : Word) : (s.setPc a).loadOpen = s.loadOpen := rfl
@[simp] theorem State.setPc_byte (s : State) (a : Word) (k : Nat) : (s.setPc a).byte k = s.byte k := rfl
@[simp] theorem State.setPc_memWf (s : State) (a : Word) : (s.setPc a).memWf = s.memWf := rfl
@[simp] theorem State.setPc_reg (s : State) (a : Word) (z : Reg) : (s.setPc a).reg z = s.reg z := rfl
@[simp] theorem State.setPc_input (s : State) (a : Word) : (s.setPc a).input = s.input := rfl
@[simp] theorem State.setPc_keyHeld (s : State) (a : Word) (k : Nat) : (s.setPc a).keyHeld k = s.keyHeld k := rfl

/-! ### advance -/

@[simp] theorem State.advance_mem (s : State) : (s.advance).mem = s.mem := rfl
@[simp] theorem State.advance_v (s : State) : (s.advance).v = s.v := rfl
@[simp] theorem State.advance_i (s : State) : (s.advance).i = s.i := rfl
@[simp] theorem State.advance_pc (s : State) : (s.advance).pc = s.pc + 2 := rfl
@[simp] theorem State.advance_stack (s : State) : (s.advance).stack = s.stack := rfl
@[simp] theorem State.advance_sp (s : State) : (s.advance).sp = s.sp := rfl
@[simp] theorem State.advance_dt (s : State) : (s.advance).dt = s.dt := rfl
@[simp] theorem State.advance_st (s : State) : (s.advance).st = s.st := rfl
@[simp] theorem State.advance_fb (s : State) : (s.advance).fb = s.fb := rfl
@[simp] theorem State.advance_changed (s : State) : (s.advance).changed = s.changed := rfl
@[simp] theorem State.advance_fault (s : State) : (s.advance).fault = s.fault := rfl
@[simp] theorem State.advance_addiThreshold (s : State) : (s.advance).addiThreshold = s.addiThreshold := rfl
@[simp] theorem State.advance_font (s : State) : (s.advance).font = s.font := rfl
@[simp] theorem State.advance_inputs (s : State) : (s.advance).inputs = s.inputs := rfl
@[simp] theorem State.advance_draws (s : State) : (s.advance).draws = s.draws := rfl
@[simp] theorem State.advance_loadOpen (s : State) : (s.advance).loadOpen = s.loadOpen := rfl
@[simp] theorem State.advance_byte (s : State) (k : Nat) : (s.advance).byte k = s.byte k := rfl
@[simp] theorem State.advance_memWf (s : State) : (s.advance).memWf = s.memWf := rfl
@[simp] theorem State.advance_reg (s : State) (z : Reg) : (s.advance).reg z = s.reg z := rfl
@[simp] theorem State.advance_input (s : State) : (s.advance).input = s.input := rfl
@[simp] theorem State.advance_keyHeld (s : State) (k : Nat) : (s.advance).keyHeld k = s.keyHeld k := rfl

/-! ### skipIf -/

@[simp] theorem State.skipIf_mem (s : State) (c : Bool) : (s.skipIf c).mem = s.mem := rfl
@[simp] theorem State.skipIf_v (s : State) (c : Bool) : (s.skipIf c).v = s.v := rfl
@[simp] theorem State.skipIf_i (s : State) (c : Bool) : (s.skipIf c).i = s.i := rfl
@[simp] theorem State.skipIf_pc (s : State) (c : Bool) : (s.skipIf c).pc = if c then s.pc + 4 else s.pc + 2 := rfl
@[simp] theorem State.skipIf_stack (s : State) (c : Bool) : (s.skipIf c).stack = s.stack := rfl
@[simp] theorem State.skipIf_sp (s : State) (c : Bool) : (s.skipIf c).sp = s.sp := rfl
@[simp] theorem State.skipIf_dt (s : State) (c : Bool) : (s.skipIf c).dt = s.dt := rfl
@[simp] theorem State.skipIf_st (s : State) (c : Bool) : (s.skipIf c).st = s.st := rfl
@[simp] theorem State.skipIf_fb (s : State) (c : Bool) : (s.skipIf c).fb = s.fb := rfl
@[simp] theorem State.skipIf_changed (s : State) (c : Bool) : (s.skipIf c).changed = s.changed := rfl
@[simp] theorem State.skipIf_fault (s : State) (c : Bool) : (s.skipIf c).fault = s.fault := rfl
@[simp] theorem State.skipIf_addiThreshold (s : State) (c : Bool) : (s.skipIf c).addiThreshold = s.addiThreshold := rfl
@[simp] theorem State.skipIf_font (s : State) (c : Bool) : (s.skipIf c).font = s.font := rfl
@[simp] theorem State.skipIf_inputs (s : State) (c : Bool) : (s.skipIf c).inputs = s.inputs := rfl
@[simp] theorem State.skipIf_draws (s : State) (c : Bool) : (s.skipIf c).draws = s.draws := rfl
@[simp] theorem State.skipIf_loadOpen (s : State) (c : Bool) : (s.skipIf c).loadOpen = s.loadOpen := rfl
@[simp] theorem State.skipIf_byte (s : State) (c : Bool) (k : Nat) : (s.skipIf c).byte k = s.byte k := rfl
@[simp] theorem State.skipIf_memWf (s : State) (c : Bool) : (s.skipIf c).memWf = s.memWf := rfl
@[simp] theorem State.skipIf_reg (s : State) (c : Bool) (z : Reg) : (s.skipIf c).reg z = s.reg z := rfl
@[simp] theorem State.skipIf_input (s : State) (c : Bool) : (s.skipIf c).input = s.input := rfl
@[simp] theorem State.skipIf_keyHeld (s : State) (c : Bool) (k : Nat) : (s.skipIf c).keyHeld k = s.keyHeld k := rfl

/-! ### putBytes -/

@[simp] theorem State.putBytes_mem (s : State) (a : Nat) (bs : List Byte) : (s.putBytes a bs).mem = s.mem.putAll s.font a bs := rfl
@[simp] theorem State.putBytes_v (s : State) (a : Nat) (bs : List Byte) : (s.putBytes a bs).v = s.v := rfl
@[simp] theorem State.putBytes_i (s : State) (a : Nat) (bs : List Byte) : (s.putBytes a bs).i = s.i := rfl
@[simp] theorem State.putBytes_pc (s : State) (a : Nat) (bs : List Byte) : (s.putBytes a bs).pc = s.pc := rfl
@[simp] theorem State.putBytes_stack (s : State) (a : Nat) (bs : List Byte) : (s.putBytes a bs).stack = s.stack := rfl
@[simp] theorem State.putBytes_sp (s : State) (a : Nat) (bs : List Byte) : (s.putBytes a bs).sp = s.sp := rfl
@[simp] theorem State.putBytes_dt (s : State) (a : Nat) (bs : List Byte) : (s.putBytes a bs).dt = s.dt := rfl
@[simp] theorem State.putBytes_st (s : State) (a : Nat) (bs : List Byte) : (s.putBytes a bs).st = s.st := rfl
@[simp] theorem State.putBytes_fb (s : State) (a : Nat) (bs : List Byte) : (s.putBytes a bs).fb = s.fb := rfl
@[simp] theorem State.putBytes_changed (s : State) (a : Nat) (bs : List Byte) : (s.putBytes a bs).changed = s.changed := rfl
@[simp] theorem State.putBytes_fault (s : State) (a : Nat) (bs : List Byte) : (s.putBytes a bs).fault = s.fault := rfl
@[simp] theorem State.putBytes_addiThreshold (s : State) (a : Nat) (bs : List Byte) : (s.putBytes a bs).addiThreshold = s.addiThreshold := rfl
@[simp] theorem State.putBytes_font (s : State) (a : Nat) (bs : List Byte) : (s.putBytes a bs).font = s.font := rfl
@[simp] theorem State.putBytes_inputs (s : State) (a : Nat) (bs : List Byte) : (s.putBytes a bs).inputs = s.inputs := rfl
@[simp] theorem State.putBytes_draws (s : State) (a : Nat) (bs : List Byte) : (s.putBytes a bs).draws = s.draws := rfl
@[simp] theorem State.putBytes_loadOpen (s : State) (a : Nat) (bs : List Byte) : (s.putBytes a bs).loadOpen = s.loadOpen := rfl
@[simp] theorem State.putBytes_reg (s : State) (a : Nat) (bs : List Byte) (z : Reg) : (s.putBytes a bs).reg z = s.reg z := rfl
@[simp] theorem State.putBytes_input (s : State) (a : Nat) (bs : List Byte) : (s.putBytes a bs).input = s.input := rfl
@[simp] theorem State.putBytes_keyHeld (s : State) (a : Nat) (bs : List Byte) (k : Nat) : (s.putBytes a bs).keyHeld k = s.keyHeld k := rfl

/-! ### setDelay -/

@[simp] theorem State.setDelay_mem (s : State) (b : Byte) : (s.setDelay b).mem = s.mem := rfl
@[simp] theorem State.setDelay_v (s : State) (b : Byte) : (s.setDelay b).v = s.v := rfl
@[simp] theorem State.setDelay_i (s : State) (b : Byte) : (s.setDelay b).i = s.i := rfl
@[simp] theorem State.setDelay_pc (s : State) (b : Byte) : (s.setDelay b).pc = s.pc := rfl
@[simp] theorem State.setDelay_stack (s : State) (b : Byte) : (s.setDelay b).stack = s.stack := rfl
@[simp] theorem State.setDelay_sp (s : State) (b : Byte) : (s.setDelay b).sp = s.sp := rfl
@[simp] theorem State.setDelay_dt (s : State) (b : Byte) : (s.setDelay b).dt = b := rfl
@[simp] theorem State.setDelay_st (s : State) (b : Byte) : (s.setDelay b).st = s.st := rfl
@[simp] theorem State.setDelay_fb (s : State) (b : Byte) : (s.setDelay b).fb = s.fb := rfl
@[simp] theorem State.setDelay_changed (s : State) (b : Byte) : (s.setDelay b).changed = s.changed := rfl
@[simp] theorem State.setDelay_fault (s : State) (b : Byte) : (s.setDelay b).fault = s.fault := rfl
@[simp] theorem State.setDelay_addiThreshold (s : State) (b : Byte) : (s.setDelay b).addiThreshold = s.addiThreshold := rfl
@[simp] theorem State.setDelay_font (s : State) (b : Byte) : (s.setDelay b).font = s.font := rfl
@[simp] theorem State.setDelay_inputs (s : State) (b : Byte) : (s.setDelay b).inputs = s.inputs := rfl
@[simp] theorem State.setDelay_draws (s : State) (b : Byte) : (s.setDelay b).draws = s.draws := rfl
@[simp] theorem State.setDelay_loadOpen (s : State) (b : Byte) : (s.setDelay b).loadOpen = s.loadOpen := rfl
@[simp] theorem State.setDelay_byte (s : State) (b : Byte) (k : Nat) : (s.setDelay b).byte k = s.byte k := rfl
@[simp] theorem State.setDelay_memWf (s : State) (b : Byte) : (s.setDelay b).memWf = s.memWf := rfl
@[simp] theorem State.setDelay_reg (s : State) (b : Byte) (z : Reg) : (s.setDelay b).reg z = s.reg z := rfl
@[simp] theorem State.setDelay_input (s : State) (b : Byte) : (s.setDelay b).input = s.input := rfl
@[simp] theorem State.setDelay_keyHeld (s : State) (b : Byte) (k : Nat) : (s.setDelay b).keyHeld k = s.keyHeld k := rfl

/-! ### setSound -/

@[simp] theorem State.setSound_mem (s : State) (b : Byte) : (s.setSound b).mem = s.mem := rfl
@[simp] theorem State.setSound_v (s : State) (b : Byte) : (s.setSound b).v = s.v := rfl
@[simp] theorem State.setSound_i (s : State) (b : Byte) : (s.setSound b).i = s.i := rfl
@[simp] theorem State.setSound_pc (s : State) (b : Byte) : (s.setSound b).pc = s.pc := rfl
@[simp] theorem State.setSound_stack (s : State) (b : Byte) : (s.setSound b).stack = s.stack := rfl
@[simp] theorem State.setSound_sp (s : State) (b : Byte) : (s.setSound b).sp = s.sp := rfl
@[simp] theorem State.setSound_dt (s : State) (b : Byte) : (s.setSound b).dt = s.dt := rfl
@[simp] theorem State.setSound_st (s : State) (b : Byte) : (s.setSound b).st = b := rfl
@[simp] theorem State.setSound_fb (s : State) (b : Byte) : (s.setSound b).fb = s.fb := rfl
@[simp] theorem State.setSound_changed (s : State) (b : Byte) : (s.setSound b).changed = s.changed := rfl
@[simp] theorem State.setSound_fault (s : State) (b : Byte) : (s.setSound b).fault = s.fault := rfl
@[simp] theorem State.setSound_addiThreshold (s : State) (b : Byte) : (s.setSound b).addiThreshold = s.addiThreshold := rfl
@[simp] theorem State.setSound_font (s : State) (b : Byte) : (s.setSound b).font = s.font := rfl
@[simp] theorem State.setSound_inputs (s : State) (b : Byte) : (s.setSound b).inputs = s.inputs := rfl
@[simp] theorem State.setSound_draws (s : State) (b : Byte) : (s.setSound b).draws = s.draws := rfl
@[simp] theorem State.setSound_loadOpen (s : State) (b : Byte) : (s.setSound b).loadOpen = s.loadOpen := rfl
@[simp] theorem State.setSound_byte (s : State) (b : Byte) (k : Nat) : (s.setSound b).byte k = s.byte k := rfl
@[simp] theorem State.setSound_memWf (s : State) (b : Byte) : (s.setSound b).memWf = s.memWf := rfl
@[simp] theorem State.setSound_reg (s : State) (b : Byte) (z : Reg) : (s.setSound b).reg z = s.reg z := rfl
@[simp] theorem State.setSound_input (s : State) (b : Byte) : (s.setSound b).input = s.input := rfl
@[simp] theorem State.setSound_keyHeld (s : State) (b : Byte) (k : Nat) : (s.setSound b).keyHeld k = s.keyHeld k := rfl

/-! ### setChanged -/

@[simp] theorem State.setChanged_mem (s : State) (c : Bool) : (s.setChanged c).mem = s.mem := rfl
@[simp] theorem State.setChanged_v (s : State) (c : Bool) : (s.setChanged c).v = s.v := rfl
@[simp] theorem State.setChanged_i (s : State) (c : Bool) : (s.setChanged c).i = s.i := rfl
@[simp] theorem State.setChanged_pc (s : State) (c : Bool) : (s.setChanged c).pc = s.pc := rfl
@[simp] theorem State.setChanged_stack (s : State) (c : Bool) : (s.setChanged c).stack = s.stack := rfl
@[simp] theorem State.setChanged_sp (s : State) (c : Bool) : (s.setChanged c).sp = s.sp := rfl
@[simp] theorem State.setChanged_dt (s : State) (c : Bool) : (s.setChanged c).dt = s.dt := rfl
@[simp] theorem State.setChanged_st (s : State) (c : Bool) : (s.setChanged c).st = s.st := rfl
@[simp] theorem State.setChanged_fb (s : State) (c : Bool) : (s.setChanged c).fb = s.fb := rfl
@[simp] theorem State.setChanged_changed (s : State) (c : Bool) : (s.setChanged c).changed = c := rfl
@[simp] theorem State.setChanged_fault (s : State) (c : Bool) : (s.setChanged c).fault = s.fault := rfl
@[simp] theorem State.setChanged_addiThreshold (s : State) (c : Bool) : (s.setChanged c).addiThreshold = s.addiThreshold := rfl
@[simp] theorem State.setChanged_font (s : State) (c : Bool) : (s.setChanged c).font = s.font := rfl
@[simp] theorem State.setChanged_inputs (s : State) (c : Bool) : (s.setChanged c).inputs = s.inputs := rfl
@[simp] theorem State.setChanged_draws (s : State) (c : Bool) : (s.setChanged c).draws = s.draws := rfl
@[simp] theorem State.setChanged_loadOpen (s : State) (c : Bool) : (s.setChanged c).loadOpen = s.loadOpen := rfl
@[simp] theorem State.setChanged_byte (s : State) (c : Bool) (k : Nat) : (s.setChanged c).byte k = s.byte k := rfl
@[simp] theorem State.setChanged_memWf (s : State) (c : Bool) : (s.setChanged c).memWf = s.memWf := rfl
@[simp] theorem State.setChanged_reg (s : State) (c : Bool) (z : Reg) : (s.setChanged c).reg z = s.reg z := rfl
@[simp] theorem State.setChanged_input (s : State) (c : Bool) : (s.setChanged c).input = s.input := rfl
@[simp] theorem State.setChanged_keyHeld (s : State) (c : Bool) (k : Nat) : (s.setChanged c).keyHeld k = s.keyHeld k := rfl

/-! ### setFb -/

@[simp] theorem State.setFb_mem (s : State) (fb : Framebuffer) : (s.setFb fb).mem = s.mem := rfl
@[simp] theorem State.setFb_v (s : State) (fb : Framebuffer) : (s.setFb fb).v = s.v := rfl
@[simp] theorem State.setFb_i (s : State) (fb : Framebuffer) : (s.setFb fb).i = s.i := rfl
@[simp] theorem State.setFb_pc (s : State) (fb : Framebuffer) : (s.setFb fb).pc = s.pc := rfl
@[simp] theorem State.setFb_stack (s : State) (fb : Framebuffer) : (s.setFb fb).stack = s.stack := rfl
@[simp] theorem State.setFb_sp (s : State) (fb : Framebuffer) : (s.setFb fb).sp = s.sp := rfl
@[simp] theorem State.setFb_dt (s : State) (fb : Framebuffer) : (s.setFb fb).dt = s.dt := rfl
@[simp] theorem State.setFb_st (s : State) (fb : Framebuffer) : (s.setFb fb).st = s.st := rfl
@[simp] theorem State.setFb_fb (s : State) (fb : Framebuffer) : (s.setFb fb).fb = fb := rfl
@[simp] theorem State.setFb_changed (s : State) (fb : Framebuffer) : (s.setFb fb).changed = s.changed := rfl
@[simp] theorem State.setFb_fault (s : State) (fb : Framebuffer) : (s.setFb fb).fault = s.fault := rfl
@[simp] theorem State.setFb_addiThreshold (s : State) (fb : Framebuffer) : (s.setFb fb).addiThreshold = s.addiThreshold := rfl
@[simp] theorem State.setFb_font (s : State) (fb : Framebuffer) : (s.setFb fb).font = s.font := rfl
@[simp] theorem State.setFb_inputs (s : State) (fb : Framebuffer) : (s.setFb fb).inputs = s.inputs := rfl
@[simp] theorem State.setFb_draws (s : State) (fb : Framebuffer) : (s.setFb fb).draws = s.draws := rfl
@[simp] theorem State.setFb_loadOpen (s : State) (fb : Framebuffer) : (s.setFb fb).loadOpen = s.loadOpen := rfl
@[simp] theorem State.setFb_byte (s : State) (fb : Framebuffer) (k : Nat) : (s.setFb fb).byte k = s.byte k := rfl
@[simp] theorem State.setFb_memWf (s : State) (fb : Framebuffer) : (s.setFb fb).memWf = s.memWf := rfl
@[simp] theorem State.setFb_reg (s : State) (fb : Framebuffer) (z : Reg) : (s.setFb fb).reg z = s.reg z := rfl
@[simp] theorem State.setFb_input (s : State) (fb : Framebuffer) : (s.setFb fb).input = s.input := rfl
@[simp] theorem State.setFb_keyHeld (s : State) (fb : Framebuffer) (k : Nat) : (s.setFb fb).keyHeld k = s.keyHeld k := rfl

/-! ### writeResult -/

@[simp] theorem State.writeResult_mem (s : State) (x : Reg) (r : Byte) (f : Bool) : (s.writeResult x r f).mem = s.mem := rfl
@[simp] theorem State.writeResult_v (s : State) (x : Reg) (r : Byte) (f : Bool) : (s.writeResult x r f).v = (s.v.set x.toNat r x.isLt).set flagReg.toNat (flagByte f) flagReg.isLt := rfl
@[simp] theorem State.writeResult_i (s : State) (x : Reg) (r : Byte) (f : Bool) : (s.writeResult x r f).i = s.i := rfl
@[simp] theorem State.writeResult_pc (s : State) (x : Reg) (r : Byte) (f : Bool) : (s.writeResult x r f).pc = s.pc + 2 := rfl
@[simp] theorem State.writeResult_stack (s : State) (x : Reg) (r : Byte) (f : Bool) : (s.writeResult x r f).stack = s.stack := rfl
@[simp] theorem State.writeResult_sp (s : State) (x : Reg) (r : Byte) (f : Bool) : (s.writeResult x r f).sp = s.sp := rfl
@[simp] theorem State.writeResult_dt (s : State) (x : Reg) (r : Byte) (f : Bool) : (s.writeResult x r f).dt = s.dt := rfl
@[simp] theorem State.writeResult_st (s : State) (x : Reg) (r : Byte) (f : Bool) : (s.writeResult x r f).st = s.st := rfl
@[simp] theorem State.writeResult_fb (s : State) (x : Reg) (r : Byte) (f : Bool) : (s.writeResult x r f).fb = s.fb := rfl
@[simp] theorem State.writeResult_changed (s : State) (x : Reg) (r : Byte) (f : Bool) : (s.writeResult x r f).changed = s.changed := rfl
@[simp] theorem State.writeResult_fault (s : State) (x : Reg) (r : Byte) (f : Bool) : (s.writeResult x r f).fault = s.fault := rfl
@[simp] theorem State.writeResult_addiThreshold (s : State) (x : Reg) (r : Byte) (f : Bool) : (s.writeResult x r f).addiThreshold = s.addiThreshold := rfl
@[simp] theorem State.writeResult_font (s : State) (x : Reg) (r : Byte) (f : Bool) : (s.writeResult x r f).font = s.font := rfl
@[simp] theorem State.writeResult_inputs (s : State) (x : Reg) (r : Byte) (f : Bool) : (s.writeResult x r f).inputs = s.inputs := rfl
@[simp] theorem State.writeResult_draws (s : State) (x : Reg) (r : Byte) (f : Bool) : (s.writeResult x r f).draws = s.draws := rfl
@[simp] theorem State.writeResult_loadOpen (s : State) (x : Reg) (r : Byte) (f : Bool) : (s.writeResult x r f).loadOpen = s.loadOpen := rfl
@[simp] theorem State.writeResult_byte (s : State) (x : Reg) (r : Byte) (f : Bool) (k : Nat) : (s.writeResult x r f).byte k = s.byte k := rfl
@[simp] theorem State.writeResult_memWf (s : State) (x : Reg) (r : Byte) (f : Bool) : (s.writeResult x r f).memWf = s.memWf := rfl
@[simp] theorem State.writeResult_input (s : State) (x : Reg) (r : Byte) (f : Bool) : (s.writeResult x r f).input = s.input := rfl
@[simp] theorem State.writeResult_keyHeld (s : State) (x : Reg) (r : Byte) (f : Bool) (k : Nat) : (s.writeResult x r f).keyHeld k = s.keyHeld k := rfl

/-! ### takeFault -/

@[simp] theorem State.takeFault_mem (s : State) (f : Fault) : (s.takeFault f).mem = s.mem := rfl
@[simp] theorem State.takeFault_v (s : State) (f : Fault) : (s.takeFault f).v = s.v := rfl
@[simp] theorem State.takeFault_i (s : State) (f : Fault) : (s.takeFault f).i = s.i := rfl
@[simp] theorem State.takeFault_pc (s : State) (f : Fault) : (s.takeFault f).pc = s.pc := rfl
@[simp] theorem State.takeFault_stack (s : State) (f : Fault) : (s.takeFault f).stack = s.stack := rfl
@[simp] theorem State.takeFault_sp (s : State) (f : Fault) : (s.takeFault f).sp = s.sp := rfl
@[simp] theorem State.takeFault_dt (s : State) (f : Fault) : (s.takeFault f).dt = s.dt := rfl
@[simp] theorem State.takeFault_st (s : State) (f : Fault) : (s.takeFault f).st = s.st := rfl
@[simp] theorem State.takeFault_fb (s : State) (f : Fault) : (s.takeFault f).fb = s.fb := rfl
@[simp] theorem State.takeFault_changed (s : State) (f : Fault) : (s.takeFault f).changed = s.changed := rfl
@[simp] theorem State.takeFault_fault (s : State) (f : Fault) : (s.takeFault f).fault = some ⟨f.code, s.pc, f.info⟩ := rfl
@[simp] theorem State.takeFault_addiThreshold (s : State) (f : Fault) : (s.takeFault f).addiThreshold = s.addiThreshold := rfl
@[simp] theorem State.takeFault_font (s : State) (f : Fault) : (s.takeFault f).font = s.font := rfl
@[simp] theorem State.takeFault_inputs (s : State) (f : Fault) : (s.takeFault f).inputs = s.inputs := rfl
@[simp] theorem State.takeFault_draws (s : State) (f : Fault) : (s.takeFault f).draws = s.draws := rfl
@[simp] theorem State.takeFault_loadOpen (s : State) (f : Fault) : (s.takeFault f).loadOpen = s.loadOpen := rfl
@[simp] theorem State.takeFault_byte (s : State) (f : Fault) (k : Nat) : (s.takeFault f).byte k = s.byte k := rfl
@[simp] theorem State.takeFault_memWf (s : State) (f : Fault) : (s.takeFault f).memWf = s.memWf := rfl
@[simp] theorem State.takeFault_reg (s : State) (f : Fault) (z : Reg) : (s.takeFault f).reg z = s.reg z := rfl
@[simp] theorem State.takeFault_input (s : State) (f : Fault) : (s.takeFault f).input = s.input := rfl
@[simp] theorem State.takeFault_keyHeld (s : State) (f : Fault) (k : Nat) : (s.takeFault f).keyHeld k = s.keyHeld k := rfl

/-! ### takeDataFault -/

@[simp] theorem State.takeDataFault_mem (s : State) : (s.takeDataFault).mem = s.mem := rfl
@[simp] theorem State.takeDataFault_v (s : State) : (s.takeDataFault).v = s.v := rfl
@[simp] theorem State.takeDataFault_i (s : State) : (s.takeDataFault).i = s.i := rfl
@[simp] theorem State.takeDataFault_pc (s : State) : (s.takeDataFault).pc = s.pc := rfl
@[simp] theorem State.takeDataFault_stack (s : State) : (s.takeDataFault).stack = s.stack := rfl
@[simp] theorem State.takeDataFault_sp (s : State) : (s.takeDataFault).sp = s.sp := rfl
@[simp] theorem State.takeDataFault_dt (s : State) : (s.takeDataFault).dt = s.dt := rfl
@[simp] theorem State.takeDataFault_st (s : State) : (s.takeDataFault).st = s.st := rfl
@[simp] theorem State.takeDataFault_fb (s : State) : (s.takeDataFault).fb = s.fb := rfl
@[simp] theorem State.takeDataFault_changed (s : State) : (s.takeDataFault).changed = s.changed := rfl
@[simp] theorem State.takeDataFault_fault (s : State) : (s.takeDataFault).fault = some ⟨4, s.pc, lowestBadAddress s.i.toNat⟩ := rfl
@[simp] theorem State.takeDataFault_addiThreshold (s : State) : (s.takeDataFault).addiThreshold = s.addiThreshold := rfl
@[simp] theorem State.takeDataFault_font (s : State) : (s.takeDataFault).font = s.font := rfl
@[simp] theorem State.takeDataFault_inputs (s : State) : (s.takeDataFault).inputs = s.inputs := rfl
@[simp] theorem State.takeDataFault_draws (s : State) : (s.takeDataFault).draws = s.draws := rfl
@[simp] theorem State.takeDataFault_loadOpen (s : State) : (s.takeDataFault).loadOpen = s.loadOpen := rfl
@[simp] theorem State.takeDataFault_byte (s : State) (k : Nat) : (s.takeDataFault).byte k = s.byte k := rfl
@[simp] theorem State.takeDataFault_memWf (s : State) : (s.takeDataFault).memWf = s.memWf := rfl
@[simp] theorem State.takeDataFault_reg (s : State) (z : Reg) : (s.takeDataFault).reg z = s.reg z := rfl
@[simp] theorem State.takeDataFault_input (s : State) : (s.takeDataFault).input = s.input := rfl
@[simp] theorem State.takeDataFault_keyHeld (s : State) (k : Nat) : (s.takeDataFault).keyHeld k = s.keyHeld k := rfl

/-! ### takeFetchFault -/

@[simp] theorem State.takeFetchFault_mem (s : State) : (s.takeFetchFault).mem = s.mem := rfl
@[simp] theorem State.takeFetchFault_v (s : State) : (s.takeFetchFault).v = s.v := rfl
@[simp] theorem State.takeFetchFault_i (s : State) : (s.takeFetchFault).i = s.i := rfl
@[simp] theorem State.takeFetchFault_pc (s : State) : (s.takeFetchFault).pc = s.pc := rfl
@[simp] theorem State.takeFetchFault_stack (s : State) : (s.takeFetchFault).stack = s.stack := rfl
@[simp] theorem State.takeFetchFault_sp (s : State) : (s.takeFetchFault).sp = s.sp := rfl
@[simp] theorem State.takeFetchFault_dt (s : State) : (s.takeFetchFault).dt = s.dt := rfl
@[simp] theorem State.takeFetchFault_st (s : State) : (s.takeFetchFault).st = s.st := rfl
@[simp] theorem State.takeFetchFault_fb (s : State) : (s.takeFetchFault).fb = s.fb := rfl
@[simp] theorem State.takeFetchFault_changed (s : State) : (s.takeFetchFault).changed = s.changed := rfl
@[simp] theorem State.takeFetchFault_fault (s : State) : (s.takeFetchFault).fault = some ⟨3, s.pc, lowestBadAddress s.pc.toNat⟩ := rfl
@[simp] theorem State.takeFetchFault_addiThreshold (s : State) : (s.takeFetchFault).addiThreshold = s.addiThreshold := rfl
@[simp] theorem State.takeFetchFault_font (s : State) : (s.takeFetchFault).font = s.font := rfl
@[simp] theorem State.takeFetchFault_inputs (s : State) : (s.takeFetchFault).inputs = s.inputs := rfl
@[simp] theorem State.takeFetchFault_draws (s : State) : (s.takeFetchFault).draws = s.draws := rfl
@[simp] theorem State.takeFetchFault_loadOpen (s : State) : (s.takeFetchFault).loadOpen = s.loadOpen := rfl
@[simp] theorem State.takeFetchFault_byte (s : State) (k : Nat) : (s.takeFetchFault).byte k = s.byte k := rfl
@[simp] theorem State.takeFetchFault_memWf (s : State) : (s.takeFetchFault).memWf = s.memWf := rfl
@[simp] theorem State.takeFetchFault_reg (s : State) (z : Reg) : (s.takeFetchFault).reg z = s.reg z := rfl
@[simp] theorem State.takeFetchFault_input (s : State) : (s.takeFetchFault).input = s.input := rfl
@[simp] theorem State.takeFetchFault_keyHeld (s : State) (k : Nat) : (s.takeFetchFault).keyHeld k = s.keyHeld k := rfl

/-! ### beginStep -/

@[simp] theorem State.beginStep_mem (s : State) : (s.beginStep).mem = s.mem := rfl
@[simp] theorem State.beginStep_v (s : State) : (s.beginStep).v = s.v := rfl
@[simp] theorem State.beginStep_i (s : State) : (s.beginStep).i = s.i := rfl
@[simp] theorem State.beginStep_pc (s : State) : (s.beginStep).pc = s.pc := rfl
@[simp] theorem State.beginStep_stack (s : State) : (s.beginStep).stack = s.stack := rfl
@[simp] theorem State.beginStep_sp (s : State) : (s.beginStep).sp = s.sp := rfl
@[simp] theorem State.beginStep_dt (s : State) : (s.beginStep).dt = s.dt := rfl
@[simp] theorem State.beginStep_st (s : State) : (s.beginStep).st = s.st := rfl
@[simp] theorem State.beginStep_fb (s : State) : (s.beginStep).fb = s.fb := rfl
@[simp] theorem State.beginStep_changed (s : State) : (s.beginStep).changed = false := rfl
@[simp] theorem State.beginStep_fault (s : State) : (s.beginStep).fault = s.fault := rfl
@[simp] theorem State.beginStep_addiThreshold (s : State) : (s.beginStep).addiThreshold = s.addiThreshold := rfl
@[simp] theorem State.beginStep_font (s : State) : (s.beginStep).font = s.font := rfl
@[simp] theorem State.beginStep_inputs (s : State) : (s.beginStep).inputs = s.inputs := rfl
@[simp] theorem State.beginStep_draws (s : State) : (s.beginStep).draws = s.draws := rfl
@[simp] theorem State.beginStep_loadOpen (s : State) : (s.beginStep).loadOpen = false := rfl
@[simp] theorem State.beginStep_byte (s : State) (k : Nat) : (s.beginStep).byte k = s.byte k := rfl
@[simp] theorem State.beginStep_memWf (s : State) : (s.beginStep).memWf = s.memWf := rfl
@[simp] theorem State.beginStep_reg (s : State) (z : Reg) : (s.beginStep).reg z = s.reg z := rfl
@[simp] theorem State.beginStep_input (s : State) : (s.beginStep).input = s.input := rfl
@[simp] theorem State.beginStep_keyHeld (s : State) (k : Nat) : (s.beginStep).keyHeld k = s.keyHeld k := rfl

/-! ### closeLoad -/

@[simp] theorem State.closeLoad_mem (s : State) : (s.closeLoad).mem = s.mem := rfl
@[simp] theorem State.closeLoad_v (s : State) : (s.closeLoad).v = s.v := rfl
@[simp] theorem State.closeLoad_i (s : State) : (s.closeLoad).i = s.i := rfl
@[simp] theorem State.closeLoad_pc (s : State) : (s.closeLoad).pc = s.pc := rfl
@[simp] theorem State.closeLoad_stack (s : State) : (s.closeLoad).stack = s.stack := rfl
@[simp] theorem State.closeLoad_sp (s : State) : (s.closeLoad).sp = s.sp := rfl
@[simp] theorem State.closeLoad_dt (s : State) : (s.closeLoad).dt = s.dt := rfl
@[simp] theorem State.closeLoad_st (s : State) : (s.closeLoad).st = s.st := rfl
@[simp] theorem State.closeLoad_fb (s : State) : (s.closeLoad).fb = s.fb := rfl
@[simp] theorem State.closeLoad_changed (s : State) : (s.closeLoad).changed = s.changed := rfl
@[simp] theorem State.closeLoad_fault (s : State) : (s.closeLoad).fault = s.fault := rfl
@[simp] theorem State.closeLoad_addiThreshold (s : State) : (s.closeLoad).addiThreshold = s.addiThreshold := rfl
@[simp] theorem State.closeLoad_font (s : State) : (s.closeLoad).font = s.font := rfl
@[simp] theorem State.closeLoad_inputs (s : State) : (s.closeLoad).inputs = s.inputs := rfl
@[simp] theorem State.closeLoad_draws (s : State) : (s.closeLoad).draws = s.draws := rfl
@[simp] theorem State.closeLoad_loadOpen (s : State) : (s.closeLoad).loadOpen = false := rfl
@[simp] theorem State.closeLoad_byte (s : State) (k : Nat) : (s.closeLoad).byte k = s.byte k := rfl
@[simp] theorem State.closeLoad_memWf (s : State) : (s.closeLoad).memWf = s.memWf := rfl
@[simp] theorem State.closeLoad_reg (s : State) (z : Reg) : (s.closeLoad).reg z = s.reg z := rfl
@[simp] theorem State.closeLoad_input (s : State) : (s.closeLoad).input = s.input := rfl
@[simp] theorem State.closeLoad_keyHeld (s : State) (k : Nat) : (s.closeLoad).keyHeld k = s.keyHeld k := rfl

/-! ### tick -/

@[simp] theorem State.tick_mem (s : State) : (s.tick).mem = s.mem := rfl
@[simp] theorem State.tick_v (s : State) : (s.tick).v = s.v := rfl
@[simp] theorem State.tick_i (s : State) : (s.tick).i = s.i := rfl
@[simp] theorem State.tick_pc (s : State) : (s.tick).pc = s.pc := rfl
@[simp] theorem State.tick_stack (s : State) : (s.tick).stack = s.stack := rfl
@[simp] theorem State.tick_sp (s : State) : (s.tick).sp = s.sp := rfl
@[simp] theorem State.tick_dt (s : State) : (s.tick).dt = tickTimer s.dt := rfl
@[simp] theorem State.tick_st (s : State) : (s.tick).st = tickTimer s.st := rfl
@[simp] theorem State.tick_fb (s : State) : (s.tick).fb = s.fb := rfl
@[simp] theorem State.tick_changed (s : State) : (s.tick).changed = s.changed := rfl
@[simp] theorem State.tick_fault (s : State) : (s.tick).fault = s.fault := rfl
@[simp] theorem State.tick_addiThreshold (s : State) : (s.tick).addiThreshold = s.addiThreshold := rfl
@[simp] theorem State.tick_font (s : State) : (s.tick).font = s.font := rfl
@[simp] theorem State.tick_inputs (s : State) : (s.tick).inputs = s.inputs := rfl
@[simp] theorem State.tick_draws (s : State) : (s.tick).draws = s.draws := rfl
@[simp] theorem State.tick_loadOpen (s : State) : (s.tick).loadOpen = s.loadOpen := rfl
@[simp] theorem State.tick_byte (s : State) (k : Nat) : (s.tick).byte k = s.byte k := rfl
@[simp] theorem State.tick_memWf (s : State) : (s.tick).memWf = s.memWf := rfl
@[simp] theorem State.tick_reg (s : State) (z : Reg) : (s.tick).reg z = s.reg z := rfl
@[simp] theorem State.tick_input (s : State) : (s.tick).input = s.input := rfl
@[simp] theorem State.tick_keyHeld (s : State) (k : Nat) : (s.tick).keyHeld k = s.keyHeld k := rfl

/-! ### Reading a register after a register write -/

theorem State.reg_eq (s : State) (z : Reg) : s.reg z = s.v[z.toNat]'z.isLt := rfl

@[simp] theorem State.setReg_reg (s : State) (x : Reg) (b : Byte) (z : Reg) :
    (s.setReg x b).reg z = if z = x then b else s.reg z := by
  by_cases h : z = x
  · subst h; simp [State.reg_eq]
  · have h' : x.toNat ≠ z.toNat := fun e => h (BitVec.eq_of_toNat_eq e.symm)
    simp [State.reg_eq, h, h']

@[simp] theorem State.setFlag_reg (s : State) (f : Bool) (z : Reg) :
    (s.setFlag f).reg z = if z = flagReg then flagByte f else s.reg z := State.setReg_reg ..

@[simp] theorem State.writeResult_reg (s : State) (x : Reg) (r : Byte) (f : Bool) (z : Reg) :
    (s.writeResult x r f).reg z = if z = flagReg then flagByte f else if z = x then r else s.reg z := by
  simp [State.writeResult]

/-! ### The end of a step -/

@[simp] theorem State.consumeInput_mem (s : State) : s.consumeInput.mem = s.mem := by
  unfold State.consumeInput; split <;> rfl
@[simp] theorem State.consumeInput_v (s : State) : s.consumeInput.v = s.v := by
  unfold State.consumeInput; split <;> rfl
@[simp] theorem State.consumeInput_i (s : State) : s.consumeInput.i = s.i := by
  unfold State.consumeInput; split <;> rfl
@[simp] theorem State.consumeInput_pc (s : State) : s.consumeInput.pc = s.pc := by
  unfold State.consumeInput; split <;> rfl
@[simp] theorem State.consumeInput_stack (s : State) : s.consumeInput.stack = s.stack := by
  unfold State.consumeInput; split <;> rfl
@[simp] theorem State.consumeInput_sp (s : State) : s.consumeInput.sp = s.sp := by
  unfold State.consumeInput; split <;> rfl
@[simp] theorem State.consumeInput_dt (s : State) : s.consumeInput.dt = s.dt := by
  unfold State.consumeInput; split <;> rfl
@[simp] theorem State.consumeInput_st (s : State) : s.consumeInput.st = s.st := by
  unfold State.consumeInput; split <;> rfl
@[simp] theorem State.consumeInput_fb (s : State) : s.consumeInput.fb = s.fb := by
  unfold State.consumeInput; split <;> rfl
@[simp] theorem State.consumeInput_changed (s : State) : s.consumeInput.changed = s.changed := by
  unfold State.consumeInput; split <;> rfl
@[simp] theorem State.consumeInput_fault (s : State) : s.consumeInput.fault = s.fault := by
  unfold State.consumeInput; split <;> rfl
@[simp] theorem State.consumeInput_addiThreshold (s : State) : s.consumeInput.addiThreshold = s.addiThreshold := by
  unfold State.consumeInput; split <;> rfl
@[simp] theorem State.consumeInput_font (s : State) : s.consumeInput.font = s.font := by
  unfold State.consumeInput; split <;> rfl
@[simp] theorem State.consumeInput_loadOpen (s : State) : s.consumeInput.loadOpen = s.loadOpen := by
  unfold State.consumeInput; split <;> rfl
@[simp] theorem State.consumeInput_byte (s : State) (k : Nat) : s.consumeInput.byte k = s.byte k := by
  simp [State.byte]
@[simp] theorem State.consumeInput_memWf (s : State) : s.consumeInput.memWf = s.memWf := by
  simp [State.memWf]
@[simp] theorem State.consumeInput_reg (s : State) (z : Reg) : s.consumeInput.reg z = s.reg z := by
  simp [State.reg_eq]
@[simp] theorem State.consumeInput_inputs (s : State) : s.consumeInput.inputs = s.inputs.tail := by
  unfold State.consumeInput; split <;> simp_all

@[simp] theorem State.endStep_mem (s : State) : s.endStep.mem = s.mem := by
  unfold State.endStep; split <;> simp_all
@[simp] theorem State.endStep_v (s : State) : s.endStep.v = s.v := by
  unfold State.endStep; split <;> simp_all
@[simp] theorem State.endStep_i (s : State) : s.endStep.i = s.i := by
  unfold State.endStep; split <;> simp_all
@[simp] theorem State.endStep_pc (s : State) : s.endStep.pc = s.pc := by
  unfold State.endStep; split <;> simp_all
@[simp] theorem State.endStep_stack (s : State) : s.endStep.stack = s.stack := by
  unfold State.endStep; split <;> simp_all
@[simp] theorem State.endStep_sp (s : State) : s.endStep.sp = s.sp := by
  unfold State.endStep; split <;> simp_all
@[simp] theorem State.endStep_dt (s : State) : s.endStep.dt = if s.fault.isSome then s.dt else tickTimer s.dt := by
  unfold State.endStep; split <;> simp_all
@[simp] theorem State.endStep_st (s : State) : s.endStep.st = if s.fault.isSome then s.st else tickTimer s.st := by
  unfold State.endStep; split <;> simp_all
@[simp] theorem State.endStep_fb (s : State) : s.endStep.fb = s.fb := by
  unfold State.endStep; split <;> simp_all
@[simp] theorem State.endStep_changed (s : State) : s.endStep.changed = s.changed := by
  unfold State.endStep; split <;> simp_all
@[simp] theorem State.endStep_fault (s : State) : s.endStep.fault = s.fault := by
  unfold State.endStep; split <;> simp_all
@[simp] theorem State.endStep_addiThreshold (s : State) : s.endStep.addiThreshold = s.addiThreshold := by
  unfold State.endStep; split <;> simp_all
@[simp] theorem State.endStep_font (s : State) : s.endStep.font = s.font := by
  unfold State.endStep; split <;> simp_all
@[simp] theorem State.endStep_loadOpen (s : State) : s.endStep.loadOpen = s.loadOpen := by
  unfold State.endStep; split <;> simp_all
@[simp] theorem State.endStep_byte (s : State) (k : Nat) : s.endStep.byte k = s.byte k := by
  simp [State.byte]
@[simp] theorem State.endStep_memWf (s : State) : s.endStep.memWf = s.memWf := by
  simp [State.memWf]
@[simp] theorem State.endStep_reg (s : State) (z : Reg) : s.endStep.reg z = s.reg z := by
  simp [State.reg_eq]
@[simp] theorem State.endStep_inputs (s : State) : s.endStep.inputs = s.inputs.tail := by
  unfold State.endStep; split <;> simp

end Sys2Proof.Machine
end

