-- ==== Sys2Proof/Laws/Memory.lean ====
section
/-! SUPPORT. Memory: reads after writes, and the canonical form that every memory operation keeps
(spec/20_memory.md R60, R66, R67, R73). -/

namespace Sys2Proof.Machine

open Sys2Proof

variable {font : Config.Font}

theorem Memory.wfFrom_cons (lo k : Nat) (b : Byte) (m : Memory) :
    Memory.wfFrom font lo ((k, b) :: m) = true ↔
      lo ≤ k ∧ k < 4096 ∧ b ≠ Memory.initial font k ∧ Memory.wfFrom font (k + 1) m = true := by
  simp [Memory.wfFrom, and_assoc]

theorem Memory.wfFrom_mono {lo lo' : Nat} (h : lo' ≤ lo) : ∀ {m : Memory}, Memory.wfFrom font lo m = true →
    Memory.wfFrom font lo' m = true
  | [], _ => rfl
  | (k, b) :: m, hm => by
    rw [Memory.wfFrom_cons] at hm ⊢
    exact ⟨by omega, hm.2⟩

/-- Below the first address of the canonical form every address reads as at reset. -/
theorem Memory.byte_of_lt {lo a : Nat} (h : a < lo) : ∀ {m : Memory}, Memory.wfFrom font lo m = true →
    m.byte font a = Memory.initial font a
  | [], _ => rfl
  | (k, b) :: m, hm => by
    rw [Memory.wfFrom_cons] at hm
    have hk : a ≠ k := by omega
    simp only [Memory.byte, hk, if_false]
    exact Memory.byte_of_lt (by omega) hm.2.2.2

theorem Memory.put_wfFrom {lo a : Nat} {b : Byte} (hlo : lo ≤ a) (ha : a < 4096) : ∀ {m : Memory},
    Memory.wfFrom font lo m = true → Memory.wfFrom font lo (m.put font a b) = true
  | [], _ => by
    unfold Memory.put
    split
    · rfl
    · rename_i hb; exact (Memory.wfFrom_cons ..).2 ⟨hlo, ha, hb, rfl⟩
  | (k, c) :: m, hm => by
    rw [Memory.wfFrom_cons] at hm
    obtain ⟨h1, h2, h3, h4⟩ := hm
    unfold Memory.put
    split
    · split
      · exact (Memory.wfFrom_cons ..).2 ⟨h1, h2, h3, h4⟩
      · rename_i hb
        exact (Memory.wfFrom_cons ..).2 ⟨hlo, ha, hb, (Memory.wfFrom_cons ..).2 ⟨by omega, h2, h3, h4⟩⟩
    · split
      · rename_i hk
        split
        · exact Memory.wfFrom_mono (by omega) h4
        · rename_i hb; subst hk; exact (Memory.wfFrom_cons ..).2 ⟨hlo, ha, hb, h4⟩
      · exact (Memory.wfFrom_cons ..).2 ⟨h1, h2, h3, Memory.put_wfFrom (by omega) ha h4⟩

/-- A write keeps the canonical form. -/
theorem Memory.put_wf {m : Memory} {a : Nat} (b : Byte) (ha : a < 4096) (hm : m.wf font = true) : (m.put font a b).wf font = true :=
  Memory.put_wfFrom (Nat.zero_le a) ha hm

/-- A write leaves every other address alone, whatever the list. -/
theorem Memory.byte_put_other {a a' : Nat} (b : Byte) (h : a' ≠ a) : ∀ m : Memory, (m.put font a b).byte font a' = m.byte font a'
  | [] => by unfold Memory.put; split <;> simp [Memory.byte, h]
  | (k, c) :: m => by
    unfold Memory.put
    split
    · split <;> simp [Memory.byte, h]
    · split
      · rename_i hk; subst hk; split <;> simp [Memory.byte, h]
      · simp [Memory.byte, Memory.byte_put_other b h m]

theorem Memory.byte_put_same_from {lo a : Nat} (b : Byte) (_ : lo ≤ a) : ∀ {m : Memory},
    Memory.wfFrom font lo m = true → (m.put font a b).byte font a = b
  | [], _ => by unfold Memory.put; split <;> simp_all [Memory.byte]
  | (k, c) :: m, hm => by
    rw [Memory.wfFrom_cons] at hm
    unfold Memory.put
    split
    · split
      · rename_i hak hb
        have hk : a ≠ k := by omega
        simp only [Memory.byte, hk, if_false]
        rw [Memory.byte_of_lt (by omega) hm.2.2.2, hb]
      · simp [Memory.byte]
    · split
      · rename_i hk
        split
        · rename_i hb
          rw [Memory.byte_of_lt (by omega) hm.2.2.2, hb]
        · simp [Memory.byte]
      · rename_i hak hk
        simp only [Memory.byte, hk, if_false]
        exact Memory.byte_put_same_from b (by omega) hm.2.2.2

/-- A read after a write to the same address gives the byte written. -/
theorem Memory.byte_put_same {m : Memory} (a : Nat) (b : Byte) (hm : m.wf font = true) : (m.put font a b).byte font a = b :=
  Memory.byte_put_same_from b (Nat.zero_le a) hm

theorem Memory.putAll_wf : ∀ (bs : List Byte) {m : Memory} {a : Nat}, a + bs.length ≤ 4096 → m.wf font = true →
    (m.putAll font a bs).wf font = true
  | [], _, _, _, hm => hm
  | b :: bs, m, a, h, hm => by
    simp only [List.length_cons] at h
    exact Memory.putAll_wf bs (by omega) (Memory.put_wf b (by omega) hm)

/-- Bytes written at `a` leave every address outside them alone. -/
theorem Memory.byte_putAll_other : ∀ (bs : List Byte) (m : Memory) (a a' : Nat),
    ¬ (a ≤ a' ∧ a' < a + bs.length) → (m.putAll font a bs).byte font a' = m.byte font a'
  | [], _, _, _, _ => rfl
  | b :: bs, m, a, a', h => by
    simp only [List.length_cons] at h
    rw [Memory.putAll, Memory.byte_putAll_other bs _ (a + 1) a' (by omega)]
    exact Memory.byte_put_other b (by omega) m

/-- Bytes written at `a` read back, byte by byte. -/
theorem Memory.byte_putAll_same : ∀ (bs : List Byte) {m : Memory} {a : Nat}, a + bs.length ≤ 4096 → m.wf font = true →
    ∀ (k : Nat) (hk : k < bs.length), (m.putAll font a bs).byte font (a + k) = bs[k]
  | b :: bs, m, a, h, hm, 0, _ => by
    rw [Memory.putAll, Memory.byte_putAll_other bs _ (a + 1) _ (by omega)]
    simpa using Memory.byte_put_same a b hm
  | b :: bs, m, a, h, hm, k + 1, hk => by
    simp only [List.length_cons] at h hk
    have := Memory.byte_putAll_same bs (m := m.put font a b) (a := a + 1) (by omega)
      (Memory.put_wf b (by omega) hm) k (by omega)
    rw [Memory.putAll, show a + (k + 1) = a + 1 + k by omega, this]
    simp

theorem Memory.inRange_iff (a n : Nat) : Memory.inRange a n = true ↔ n = 0 ∨ a + n ≤ 4096 := by
  simp [Memory.inRange]

/-! ### The memory of a state -/

@[simp] theorem State.bytes_length (s : State) (a n : Nat) : (s.bytes a n).length = n := by simp [State.bytes]

@[simp] theorem State.bytes_getElem (s : State) (a n k : Nat) (h : k < (s.bytes a n).length) :
    (s.bytes a n)[k] = s.byte (a + k) := by simp [State.bytes]

/-- Bytes stored at `a` read back, byte by byte. -/
theorem State.byte_putBytes_same {s : State} {a : Nat} {bs : List Byte} (h : a + bs.length ≤ 4096) (hm : s.memWf = true)
    (k : Nat) (hk : k < bs.length) : (s.putBytes a bs).byte (a + k) = bs[k] := Memory.byte_putAll_same bs h hm k hk

/-- Bytes stored at `a` leave every address outside them alone. -/
theorem State.byte_putBytes_other (s : State) {a a' : Nat} {bs : List Byte} (h : ¬ (a ≤ a' ∧ a' < a + bs.length)) :
    (s.putBytes a bs).byte a' = s.byte a' := Memory.byte_putAll_other bs s.mem a a' h

/-- A store keeps the canonical form. -/
theorem State.putBytes_memWf {s : State} {a : Nat} {bs : List Byte} (h : a + bs.length ≤ 4096) (hm : s.memWf = true) :
    (s.putBytes a bs).memWf = true := Memory.putAll_wf bs h hm

/-- Everything a checked read can do. -/
theorem State.memRead_eq (s : State) (a n : Nat) :
    s.memRead a n = if n = 0 ∨ a + n ≤ 4096 then some (s.bytes a n) else none := by
  simp only [State.memRead, Memory.inRange_iff]

/-- Everything a checked write can do. -/
theorem State.memWrite_eq (s : State) (a : Nat) (bs : List Byte) :
    s.memWrite a bs = if bs.length = 0 ∨ a + bs.length ≤ 4096 then some (s.putBytes a bs) else none := by
  simp only [State.memWrite, Memory.inRange_iff]

/-- A checked write keeps the canonical form. -/
theorem State.memWrite_memWf {s t : State} {a : Nat} {bs : List Byte} (h : s.memWrite a bs = some t) (hm : s.memWf = true) :
    t.memWf = true := by
  rw [State.memWrite_eq] at h
  split at h
  · rename_i hr
    cases h
    rcases hr with hr | hr
    · rw [List.length_eq_zero_iff] at hr; subst hr; exact hm
    · exact State.putBytes_memWf hr hm
  · cases h

/-- With nothing listed memory reads as the reset contents, whatever the `FONT` of the instance. -/
theorem State.byte_of_mem_nil {s : State} (h : s.mem = []) (a : Nat) : s.byte a = if h : a < 80 then s.font[a]'h else 0 := by
  simp [State.byte, h, Memory.byte, Memory.initial]

theorem State.reset_memWf : State.reset.memWf = true := rfl

end Sys2Proof.Machine
end

