-- ==== Sys2Proof/Laws/Ops.lean ====
section
/-! SUPPORT. What each shared operation can do, said once: the stack, the data accesses, register ranges, the framebuffer, the
end of a step. -/

namespace Sys2Proof.Machine

open Sys2Proof

/-! ### The stack -/

/-- Everything a push can do. -/
theorem State.push_cases (s : State) (a : Word) :
    (s.sp.val = 16 ∧ s.push a = none) ∨
    (∃ (h : s.sp.val < 16) (t : State), s.push a = some t ∧ t.sp.val = s.sp.val + 1 ∧
      t = { s with stack := s.stack.set s.sp.val a h, sp := t.sp }) := by
  unfold State.push
  split
  · rename_i h; exact .inr ⟨h, _, rfl, rfl, rfl⟩
  · rename_i h
    have : ¬ s.sp.val < 16 := h
    exact .inl ⟨by omega, rfl⟩

/-- Everything a pop can do. -/
theorem State.pop_cases (s : State) :
    (s.sp.val = 0 ∧ s.pop = none) ∨
    (∃ (h : s.sp.val - 1 < 16) (t : State), 0 < s.sp.val ∧ s.pop = some (t, s.stack[s.sp.val - 1]'h) ∧
      t.sp.val = s.sp.val - 1 ∧ t = { s with sp := t.sp }) := by
  unfold State.pop
  split
  · rename_i h; exact .inr ⟨by omega, _, h, rfl, rfl, rfl⟩
  · exact .inl ⟨by omega, rfl⟩

/-! ### Data accesses -/

@[simp] theorem State.dataAddress_zero (s : State) : s.dataAddress 0 = s.i.toNat := rfl

/-- Everything a load through `I` can do. -/
theorem State.loadData_eq (s : State) (n : Nat) :
    s.loadData n = if n = 0 ∨ s.i.toNat + n ≤ 4096 then some (s.bytes s.i.toNat n) else none := by
  simp [State.loadData, State.memRead_eq]

/-- Everything a store through `I` can do. -/
theorem State.storeData_eq (s : State) (bs : List Byte) :
    s.storeData bs =
      if bs.length = 0 ∨ s.i.toNat + bs.length ≤ 4096 then some (s.putBytes s.i.toNat bs) else none := by
  simp only [State.storeData, State.memWrite_eq, State.dataAddress_zero]

@[simp] theorem bcdDigits_length (b : Byte) : (bcdDigits b).length = 3 := rfl

/-! ### Register ranges -/

@[simp] theorem State.regs_length (s : State) (n : Nat) : (s.regs n).length = n := by simp [State.regs]

@[simp] theorem State.regs_getElem (s : State) (n k : Nat) (h : k < (s.regs n).length) :
    (s.regs n)[k] = s.reg (BitVec.ofNat 4 k) := by simp [State.regs]

/-- Writing a range of registers changes no other field. -/
theorem State.setRegs_eq : ∀ (bs : List Byte) (s : State) (k : Nat), ∃ v, s.setRegs k bs = { s with v := v }
  | [], s, _ => ⟨s.v, rfl⟩
  | b :: bs, s, k => by
    obtain ⟨v, hv⟩ := State.setRegs_eq bs (s.setReg (BitVec.ofNat 4 k) b) (k + 1)
    exact ⟨v, hv⟩

/-- Reading a register after writing a range of registers. -/
theorem State.setRegs_reg : ∀ (bs : List Byte) (s : State) (k : Nat), k + bs.length ≤ 16 → ∀ z : Reg,
    (s.setRegs k bs).reg z =
      if h : k ≤ z.toNat ∧ z.toNat < k + bs.length then bs[z.toNat - k]'(by omega) else s.reg z
  | [], s, k, _, z => by
    rw [State.setRegs, dif_neg (by simp)]
  | b :: bs, s, k, h, z => by
    simp only [List.length_cons] at h
    have hk : (z = BitVec.ofNat 4 k) ↔ z.toNat = k := by
      rw [← BitVec.toNat_inj, BitVec.toNat_ofNat, Nat.mod_eq_of_lt (by omega)]
    rw [State.setRegs, State.setRegs_reg bs _ (k + 1) (by omega) z, State.setReg_reg]
    simp only [hk, List.length_cons]
    rcases Nat.lt_trichotomy z.toNat k with hz | hz | hz
    · rw [dif_neg (by omega), if_neg (by omega), dif_neg (by omega)]
    · rw [dif_neg (by omega), if_pos hz, dif_pos (by omega)]
      simp [hz]
    · by_cases hb : z.toNat < k + (bs.length + 1)
      · rw [dif_pos (by omega), dif_pos (by omega)]
        have e : z.toNat - k = z.toNat - (k + 1) + 1 := by omega
        simp only [e, List.getElem_cons_succ]
      · rw [dif_neg (by omega), if_neg (by omega), dif_neg (by omega)]

/-! ### The framebuffer -/

@[simp] theorem Framebuffer.blank_cell (y : Fin 32) (x : Fin 64) : Framebuffer.blank.cell y x = false := by
  simp [Framebuffer.cell, Framebuffer.blank]

/-- Toggling a cell flips it and no other. -/
@[simp] theorem Framebuffer.toggle_cell (fb : Framebuffer) (y y' : Fin 32) (x x' : Fin 64) :
    (fb.toggle y x).cell y' x' = (fb.cell y' x' ^^ decide (y' = y ∧ x' = x)) := by
  unfold Framebuffer.toggle Framebuffer.cell
  by_cases hy : y' = y
  · subst hy
    simp only [Vector.getElem_set_self, BitVec.getLsbD_xor, BitVec.getLsbD_twoPow, true_and]
    by_cases hx : x' = x
    · subst hx; simp
    · have : ¬ x.val = x'.val := fun e => hx (Fin.ext e.symm)
      simp [hx, this]
  · have : ¬ y.val = y'.val := fun e => hy (Fin.ext e.symm)
    simp [hy, Vector.getElem_set_ne, this]

/-- Two framebuffers with the same cells are the same. -/
theorem Framebuffer.ext_cell {f g : Framebuffer} (h : ∀ y x, f.cell y x = g.cell y x) : f = g := by
  apply Vector.ext
  intro k hk
  apply BitVec.eq_of_getLsbD_eq
  intro j hj
  exact h ⟨k, hk⟩ ⟨j, hj⟩

/-! ### The end of a step -/

theorem State.endStep_of_fault {s : State} (h : s.fault.isSome = true) : s.endStep = s.consumeInput := by
  simp [State.endStep, h]

theorem State.endStep_of_ok {s : State} (h : s.fault = none) : s.endStep = s.tick.consumeInput := by
  simp [State.endStep, h]

@[simp] theorem State.input_beginStep (s : State) : s.beginStep.input = s.input := rfl

/-- The driver's inputs are those of its next step. -/
theorem State.input_cons {s : State} {i : Inputs} {l : List Inputs} (h : s.inputs = i :: l) : s.input = i := by
  simp [State.input, h]

/-! ### The fetch -/

theorem State.fetch_eq (s : State) : s.fetch = if s.pc.toNat ≤ 4094 then some s.wordAtPc else none := rfl

@[simp] theorem State.wordAtPc_beginStep (s : State) : s.beginStep.wordAtPc = s.wordAtPc := rfl

theorem lowestBadAddress_toNat {a : Nat} (h : a < 65536) : (lowestBadAddress a).toNat = max a 4096 := by
  rw [lowestBadAddress, BitVec.toNat_ofNat, Nat.mod_eq_of_lt (by simp only [Config.memSize]; omega)]

end Sys2Proof.Machine
end

