-- ==== Sys2Proof/Laws/Exec.lean ====
section
/-! SUPPORT. The branching instructions as one equation each, with the condition of each branch on the state and the operands
alone: what the meaning answers, said once. -/

namespace Sys2Proof.Machine

open Sys2Proof

theorem exec_ret_of_zero {s : State} (h : s.sp.val = 0) : exec .ret s = .next (s.takeFault .stackUnderflow) := by
  have : s.pop = none := by unfold State.pop; rw [dif_neg (by omega)]
  simp only [exec, execRet, this]

theorem exec_ret_of_pos {s : State} (h : 0 < s.sp.val) :
    exec .ret s = .next { s with sp := ⟨s.sp.val - 1, by have := s.sp.isLt; omega⟩, pc := s.stack[s.sp.val - 1]'(by
      have := s.sp.isLt; omega) } := by
  simp only [exec, execRet, State.pop, dif_pos h]
  rfl

theorem exec_call_of_full {s : State} (nnn : Addr12) (h : s.sp.val = 16) :
    exec (.call nnn) s = .next (s.takeFault .stackOverflow) := by
  have : s.push (s.pc + 2) = none := by
    unfold State.push; rw [dif_neg (by simp only [Config.stackDepth]; omega)]
  simp only [exec, execCall, this]

theorem exec_call_of_lt {s : State} (nnn : Addr12) (h : s.sp.val < 16) :
    exec (.call nnn) s = .next { s with
      stack := s.stack.set s.sp.val (s.pc + 2) h, sp := ⟨s.sp.val + 1, by omega⟩, pc := addr16 nnn } := by
  simp only [exec, execCall, State.push, dif_pos (show s.sp.val < Config.stackDepth from h)]
  rfl

theorem exec_drawSprite_eq (s : State) (x y : Reg) (n : Nibble) :
    exec (.drawSprite x y n) s = .next (if n.toNat = 0 ∨ s.i.toNat + n.toNat ≤ 4096 then
      (((s.setFb (s.fb.draw (s.reg x) (s.reg y) (s.bytes s.i.toNat n.toNat)).1).setFlag
        (s.fb.draw (s.reg x) (s.reg y) (s.bytes s.i.toNat n.toNat)).2).setChanged true).advance
      else s.takeDataFault) := by
  by_cases h : n.toNat = 0 ∨ s.i.toNat + n.toNat ≤ 4096 <;> simp only [exec, execDrawSprite, State.loadData_eq, h, if_true, if_false]

theorem exec_storeBcd_eq (s : State) (x : Reg) :
    exec (.storeBcd x) s = .next (if s.i.toNat + 3 ≤ 4096 then
      (s.putBytes s.i.toNat (bcdDigits (s.reg x))).advance else s.takeDataFault) := by
  by_cases h : s.i.toNat + 3 ≤ 4096 <;> simp [exec, execStoreBcd, State.storeData_eq, h]

theorem exec_regDump_eq (s : State) (x : Reg) :
    exec (.regDump x) s = .next (if s.i.toNat + (x.toNat + 1) ≤ 4096 then
      (s.putBytes s.i.toNat (s.regs (x.toNat + 1))).advance else s.takeDataFault) := by
  by_cases h : s.i.toNat + (x.toNat + 1) ≤ 4096 <;> simp [exec, execRegDump, State.storeData_eq, h]

theorem exec_regLoad_eq (s : State) (x : Reg) :
    exec (.regLoad x) s = .next (if s.i.toNat + (x.toNat + 1) ≤ 4096 then
      (s.setRegs 0 (s.bytes s.i.toNat (x.toNat + 1))).advance else s.takeDataFault) := by
  by_cases h : s.i.toNat + (x.toNat + 1) ≤ 4096 <;> simp [exec, execRegLoad, State.loadData_eq, h]

theorem exec_addToIndex_eq (s : State) (x : Reg) :
    exec (.addToIndex x) s = .next (if 65535 < s.i.toNat + (s.reg x).toNat then
      s.takeFault (.indexRange (BitVec.ofNat 17 (s.i.toNat + (s.reg x).toNat)))
      else ((s.setIndex (BitVec.ofNat 16 (s.i.toNat + (s.reg x).toNat))).setFlag
        (indexFlag s.addiThreshold (s.i.toNat + (s.reg x).toNat))).advance) := by
  simp only [exec, execAddToIndex]; split <;> rfl

theorem exec_skipKeyPressed_eq (s : State) (x : Reg) :
    exec (.skipKeyPressed x) s = .next (if 15 < (s.reg x).toNat then s.takeFault (.keyIndexRange (s.reg x))
      else s.skipIf (s.keyHeld (s.reg x).toNat)) := by
  simp only [exec, execSkipKeyPressed]; split <;> rfl

theorem exec_skipKeyNotPressed_eq (s : State) (x : Reg) :
    exec (.skipKeyNotPressed x) s = .next (if 15 < (s.reg x).toNat then s.takeFault (.keyIndexRange (s.reg x))
      else s.skipIf (!s.keyHeld (s.reg x).toNat)) := by
  simp only [exec, execSkipKeyNotPressed]; split <;> rfl

/-- Writing a range of registers changes no field but the registers. -/
theorem State.setRegs_env (bs : List Byte) (s : State) (k : Nat) : EnvSame s (s.setRegs k bs) := by
  obtain ⟨v, hv⟩ := State.setRegs_eq bs s k
  rw [hv]; exact ⟨rfl, rfl, rfl, rfl, rfl⟩

/-- Every instruction answers a next state, and keeps the model's own fields. -/
theorem exec_next (i : Instr) (s : State) : ∃ t, exec i s = .next t ∧ EnvSame s t := by
  cases i
  case ret =>
    by_cases h : s.sp.val = 0
    · exact ⟨_, exec_ret_of_zero h, ⟨rfl, rfl, rfl, rfl, rfl⟩⟩
    · exact ⟨_, exec_ret_of_pos (Nat.pos_of_ne_zero h), ⟨rfl, rfl, rfl, rfl, rfl⟩⟩
  case call nnn =>
    by_cases h : s.sp.val < 16
    · exact ⟨_, exec_call_of_lt nnn h, ⟨rfl, rfl, rfl, rfl, rfl⟩⟩
    · exact ⟨_, exec_call_of_full nnn (by omega), ⟨rfl, rfl, rfl, rfl, rfl⟩⟩
  case drawSprite x y n =>
    exact ⟨_, exec_drawSprite_eq s x y n, by split <;> exact ⟨rfl, rfl, rfl, rfl, rfl⟩⟩
  case storeBcd x => exact ⟨_, exec_storeBcd_eq s x, by split <;> exact ⟨rfl, rfl, rfl, rfl, rfl⟩⟩
  case regDump x => exact ⟨_, exec_regDump_eq s x, by split <;> exact ⟨rfl, rfl, rfl, rfl, rfl⟩⟩
  case regLoad x =>
    refine ⟨_, exec_regLoad_eq s x, ?_⟩
    split
    · have h := State.setRegs_env (s.bytes s.i.toNat (x.toNat + 1)) s 0
      exact ⟨h.addiThreshold, h.inputs, h.draws, h.loadOpen, h.font⟩
    · exact ⟨rfl, rfl, rfl, rfl, rfl⟩
  case addToIndex x => exact ⟨_, exec_addToIndex_eq s x, by split <;> exact ⟨rfl, rfl, rfl, rfl, rfl⟩⟩
  case skipKeyPressed x => exact ⟨_, exec_skipKeyPressed_eq s x, by split <;> exact ⟨rfl, rfl, rfl, rfl, rfl⟩⟩
  case skipKeyNotPressed x => exact ⟨_, exec_skipKeyNotPressed_eq s x, by split <;> exact ⟨rfl, rfl, rfl, rfl, rfl⟩⟩
  all_goals exact ⟨_, rfl, ⟨rfl, rfl, rfl, rfl, rfl⟩⟩

end Sys2Proof.Machine
end

