-- ==== Sys2Proof/Laws/Draw.lean ====
section
/-! SUPPORT. What drawing a sprite does, in closed form (spec/44_display.md R191): the cells under its 1 bits are distinct, each is
flipped once, and there is a hit exactly when one of them was 1. -/

namespace Sys2Proof.Machine

open Sys2Proof

/-- The cells under the 1 bits of one row. -/
def rowCells (vx vy : Byte) (r : Nat) (row : Byte) : List (Fin 32 × Fin 64) :=
  ((List.range 8).filter fun c => row.getLsbD (7 - c)).map fun c => (pixelRow vy r, pixelColumn vx c)

/-- The cells under the 1 bits of the rows from row offset `r` on. -/
def spriteCells (vx vy : Byte) : Nat → List Byte → List (Fin 32 × Fin 64)
  | _, [] => []
  | r, row :: rows => rowCells vx vy r row ++ spriteCells vx vy (r + 1) rows

/-- Flip one cell, and record whether it was 1. -/
def flipCell (acc : Framebuffer × Bool) (p : Fin 32 × Fin 64) : Framebuffer × Bool :=
  (acc.1.toggle p.1 p.2, acc.2 || acc.1.cell p.1 p.2)

theorem drawRow_eq (vx vy : Byte) (r : Nat) (row : Byte) (acc : Framebuffer × Bool) :
    drawRow vx vy r row acc = (rowCells vx vy r row).foldl flipCell acc := by
  unfold drawRow rowCells
  generalize List.range 8 = cs
  induction cs generalizing acc with
  | nil => rfl
  | cons c cs ih =>
    rw [List.foldl_cons, ih]
    by_cases hb : row.getLsbD (7 - c) = true
    · simp [drawPixel, hb, flipCell]
    · simp [drawPixel, hb]

theorem drawRows_eq (vx vy : Byte) : ∀ (rows : List Byte) (r : Nat) (acc : Framebuffer × Bool),
    drawRows vx vy r rows acc = (spriteCells vx vy r rows).foldl flipCell acc
  | [], _, _ => rfl
  | row :: rows, r, acc => by
    rw [drawRows, drawRows_eq vx vy rows, drawRow_eq, spriteCells, List.foldl_append]

/-- Flipping distinct cells: each is flipped once, the others stay, and a hit is a cell that was 1 at the start. -/
theorem foldl_flipCell : ∀ (ps : List (Fin 32 × Fin 64)) (acc : Framebuffer × Bool), ps.Nodup →
    (∀ y x, (ps.foldl flipCell acc).1.cell y x = (acc.1.cell y x ^^ decide ((y, x) ∈ ps))) ∧
    (ps.foldl flipCell acc).2 = (acc.2 || ps.any fun p => acc.1.cell p.1 p.2)
  | [], acc, _ => by simp
  | p :: ps, acc, hn => by
    obtain ⟨hp, hn⟩ := List.nodup_cons.1 hn
    obtain ⟨h1, h2⟩ := foldl_flipCell ps (flipCell acc p) hn
    refine ⟨fun y x => ?_, ?_⟩
    · rw [List.foldl_cons, h1]
      simp only [flipCell, Framebuffer.toggle_cell, List.mem_cons, Prod.ext_iff]
      by_cases hyx : y = p.1 ∧ x = p.2
      · obtain ⟨rfl, rfl⟩ := hyx
        simp [hp]
      · simp [hyx]
    · rw [List.foldl_cons, h2]
      have hany : (ps.any fun q => (flipCell acc p).1.cell q.1 q.2) = ps.any fun q => acc.1.cell q.1 q.2 := by
        rw [Bool.eq_iff_iff, List.any_eq_true, List.any_eq_true]
        refine exists_congr fun q => and_congr_right fun hq => ?_
        have hne : ¬ (q.1 = p.1 ∧ q.2 = p.2) := fun e => hp (Prod.ext e.1 e.2 ▸ hq)
        simp [flipCell, hne]
      rw [hany]
      simp [flipCell, Bool.or_assoc]

theorem mem_rowCells {vx vy : Byte} {r : Nat} {row : Byte} {y : Fin 32} {x : Fin 64} :
    (y, x) ∈ rowCells vx vy r row ↔
      ∃ c, c < 8 ∧ y.val = (vy.toNat + r) % 32 ∧ x.val = (vx.toNat + c) % 64 ∧ row.getLsbD (7 - c) = true := by
  simp only [rowCells, List.mem_map, List.mem_filter, List.mem_range, Prod.mk.injEq]
  constructor
  · rintro ⟨c, ⟨hc, hb⟩, hy, hx⟩
    exact ⟨c, hc, by rw [← hy]; rfl, by rw [← hx]; rfl, hb⟩
  · rintro ⟨c, hc, hy, hx, hb⟩
    exact ⟨c, ⟨hc, hb⟩, Fin.ext hy.symm, Fin.ext hx.symm⟩

theorem mem_spriteCells {vx vy : Byte} {y : Fin 32} {x : Fin 64} : ∀ {rows : List Byte} {r : Nat},
    (y, x) ∈ spriteCells vx vy r rows ↔ ∃ (k c : Nat) (h : k < rows.length), c < 8 ∧ y.val = (vy.toNat + (r + k)) % 32 ∧
      x.val = (vx.toNat + c) % 64 ∧ rows[k].getLsbD (7 - c) = true
  | [], r => by simp [spriteCells]
  | row :: rows, r => by
    rw [spriteCells, List.mem_append, mem_rowCells, mem_spriteCells]
    constructor
    · rintro (⟨c, h⟩ | ⟨k, c, hk, h1, h2, h3, h4⟩)
      · exact ⟨0, c, by simp, h⟩
      · exact ⟨k + 1, c, by simpa using hk, h1, by rw [h2]; congr 1; omega, h3, h4⟩
    · rintro ⟨k, c, hk, h1, h2, h3, h4⟩
      cases k with
      | zero => exact .inl ⟨c, h1, h2, h3, h4⟩
      | succ k => exact .inr ⟨k, c, by simpa using hk, h1, by rw [h2]; congr 1; omega, h3, h4⟩

theorem nodup_rowCells (vx vy : Byte) (r : Nat) (row : Byte) : (rowCells vx vy r row).Nodup := by
  refine (List.nodup_range.filter _).map_on ?_
  intro a ha b hb h
  have ha := List.mem_range.1 (List.mem_filter.1 ha).1
  have hb := List.mem_range.1 (List.mem_filter.1 hb).1
  have h : (vx.toNat + a) % 64 = (vx.toNat + b) % 64 := congrArg (fun q => q.2.val) h
  omega

/-- A sprite of at most 32 rows never overlaps itself. -/
theorem nodup_spriteCells (vx vy : Byte) : ∀ (rows : List Byte) (r : Nat), rows.length ≤ 32 →
    (spriteCells vx vy r rows).Nodup
  | [], _, _ => List.nodup_nil
  | row :: rows, r, h => by
    simp only [List.length_cons] at h
    refine (nodup_rowCells vx vy r row).append (nodup_spriteCells vx vy rows (r + 1) (by omega)) ?_
    rintro ⟨y, x⟩ h1 h2
    obtain ⟨_, _, hy, _⟩ := mem_rowCells.1 h1
    obtain ⟨k, _, hk, _, hy', _⟩ := mem_spriteCells.1 h2
    omega

/-- Everything a draw of at most 32 rows does: every cell under a 1 bit is flipped, no other; a hit is a flipped cell that
was 1. -/
theorem Framebuffer.draw_spec (fb : Framebuffer) (vx vy : Byte) {rows : List Byte} (h : rows.length ≤ 32) :
    (∀ y x, (fb.draw vx vy rows).1.cell y x = (fb.cell y x ^^ decide ((y, x) ∈ spriteCells vx vy 0 rows))) ∧
    ((fb.draw vx vy rows).2 = true ↔ ∃ y x, (y, x) ∈ spriteCells vx vy 0 rows ∧ fb.cell y x = true) := by
  obtain ⟨h1, h2⟩ := foldl_flipCell _ (fb, false) (nodup_spriteCells vx vy rows 0 h)
  rw [Framebuffer.draw, drawRows_eq]
  refine ⟨h1, ?_⟩
  rw [h2]
  simp

/-- The cells under the sprite of `n` rows at `I` are those of the spec's loop. -/
theorem mem_spriteCells_iff_covers (s : State) (vx vy : Byte) (n : Nat) (y : Fin 32) (x : Fin 64) :
    (y, x) ∈ spriteCells vx vy 0 (s.bytes s.i.toNat n) ↔ s.SpriteCovers vx vy n y x := by
  rw [mem_spriteCells]
  constructor
  · rintro ⟨k, c, hk, h⟩
    exact ⟨k, c, by simpa using hk, by simpa [State.dataAddress] using h⟩
  · rintro ⟨k, c, hk, h⟩
    exact ⟨k, c, by simpa using hk, by simpa [State.dataAddress] using h⟩

end Sys2Proof.Machine
end

