-- ==== Sys2Proof/Laws/Step.lean ====
section
/-! SUPPORT. What a step can do, said once (spec/40_step_fetch_decode.md R120): the latched machine, the fetch fault, the decoded
instruction, the fallback. -/

namespace Sys2Proof.Machine

open Sys2Proof

theorem step_of_latched {s : State} (h : s.fault ≠ none) : step s = .next s.beginStep.endStep := by
  simp [step, finish, Option.isSome_iff_ne_none, h]

theorem step_of_fetch_fault {s : State} (h : s.fault = none) (hp : ¬ s.pc.toNat ≤ 4094) :
    step s = .next s.beginStep.takeFetchFault.endStep := by
  simp [step, runStep, finish, h, State.fetch_eq, hp]

theorem step_of_runs {s : State} {i : Instr} (h : s.Runs i) : step s = finish (exec i s.beginStep) := by
  obtain ⟨hf, hp, hd⟩ := h
  simp [step, runStep, hf, State.fetch_eq, hp, runWord, hd]

theorem step_of_unknown {s : State} {e : DecodeError} (h : s.fault = none) (hp : s.pc.toNat ≤ 4094)
    (hd : decodeWord s.wordAtPc = .error e) : step s = .next s.beginStep.advance.endStep := by
  simp [step, runStep, h, State.fetch_eq, hp, runWord, hd, execFallback, finish]

/-- Everything a step can do: it is a latched step, a fetch fault, a decoded instruction or the fallback, and in each case
it answers the end of a handler's state. -/
theorem step_cases (s : State) :
    (s.fault ≠ none ∧ step s = .next s.beginStep.endStep) ∨
    (s.fault = none ∧ 4094 < s.pc.toNat ∧ step s = .next s.beginStep.takeFetchFault.endStep) ∨
    (∃ i t, s.Runs i ∧ exec i s.beginStep = .next t ∧ step s = .next t.endStep) ∨
    (∃ w, s.fault = none ∧ s.pc.toNat ≤ 4094 ∧ decodeWord s.wordAtPc = .error w ∧
      step s = .next s.beginStep.advance.endStep) := by
  by_cases hf : s.fault = none
  · by_cases hp : s.pc.toNat ≤ 4094
    · cases hd : decodeWord s.wordAtPc with
      | ok i =>
        obtain ⟨t, ht, _⟩ := exec_next i s.beginStep
        exact .inr (.inr (.inl ⟨i, t, ⟨hf, hp, hd⟩, ht, by rw [step_of_runs ⟨hf, hp, hd⟩, ht]; rfl⟩))
      | error e => exact .inr (.inr (.inr ⟨e, hf, hp, rfl, step_of_unknown hf hp hd⟩))
    · exact .inr (.inl ⟨hf, by omega, step_of_fetch_fault hf hp⟩)
  · exact .inl ⟨hf, step_of_latched hf⟩

end Sys2Proof.Machine
end

