-- ==== Sys2Proof/Laws/Encoding.lean ====
section
/-! SUPPORT. The five word forms of the encoder, field by field, and the byte order of a word (spec/30_encoding.md R91, R94). -/

namespace Sys2Proof

/-- A word is its high byte then its low byte (R64). -/
theorem wordOfBytes_hiByte_loByte (w : Word) : wordOfBytes (hiByte w) (loByte w) = w := by
  apply BitVec.eq_of_getLsbD_eq
  intro i hi
  simp only [wordOfBytes, hiByte, loByte, BitVec.getLsbD_append, BitVec.getLsbD_extractLsb']
  interval_cases i <;> simp

/-! ### Format `A` -/

theorem formA_mask (op : Word) (nnn : Addr12) (h : op &&& 0x0FFF = 0) : formA op nnn &&& 0xF000 = op := by
  apply BitVec.eq_of_getLsbD_eq
  intro i hi
  have hb := congrArg (fun w : Word => w.getLsbD i) h
  simp only [formA, BitVec.getLsbD_or, BitVec.getLsbD_and, BitVec.getLsbD_setWidth] at hb ⊢
  interval_cases i <;> simp_all

theorem fieldNNN_formA (op : Word) (nnn : Addr12) (h : op &&& 0x0FFF = 0) : fieldNNN (formA op nnn) = nnn := by
  apply BitVec.eq_of_getLsbD_eq
  intro i hi
  have hb := congrArg (fun w : Word => w.getLsbD (0 + i)) h
  simp only [formA, fieldNNN, BitVec.getLsbD_extractLsb', BitVec.getLsbD_or, BitVec.getLsbD_and, BitVec.getLsbD_setWidth] at hb ⊢
  interval_cases i <;> simp_all

/-! ### Format `I` -/

theorem formI_mask (op : Word) (x : Reg) (kk : Byte) (h : op &&& 0x0FFF = 0) : formI op x kk &&& 0xF000 = op := by
  apply BitVec.eq_of_getLsbD_eq
  intro i hi
  have hb := congrArg (fun w : Word => w.getLsbD i) h
  simp only [formI, BitVec.getLsbD_or, BitVec.getLsbD_and, BitVec.getLsbD_shiftLeft, BitVec.getLsbD_setWidth] at hb ⊢
  interval_cases i <;> simp_all

theorem fieldX_formI (op : Word) (x : Reg) (kk : Byte) (h : op &&& 0x0FFF = 0) : fieldX (formI op x kk) = x := by
  apply BitVec.eq_of_getLsbD_eq
  intro i hi
  have hb := congrArg (fun w : Word => w.getLsbD (8 + i)) h
  simp only [formI, fieldX, BitVec.getLsbD_extractLsb', BitVec.getLsbD_or, BitVec.getLsbD_and, BitVec.getLsbD_shiftLeft, BitVec.getLsbD_setWidth] at hb ⊢
  interval_cases i <;> simp_all

theorem fieldKK_formI (op : Word) (x : Reg) (kk : Byte) (h : op &&& 0x0FFF = 0) : fieldKK (formI op x kk) = kk := by
  apply BitVec.eq_of_getLsbD_eq
  intro i hi
  have hb := congrArg (fun w : Word => w.getLsbD (0 + i)) h
  simp only [formI, fieldKK, BitVec.getLsbD_extractLsb', BitVec.getLsbD_or, BitVec.getLsbD_and, BitVec.getLsbD_shiftLeft, BitVec.getLsbD_setWidth] at hb ⊢
  interval_cases i <;> simp_all

/-! ### Format `R` -/

theorem formR_mask (op : Word) (x y : Reg) (h : op &&& 0x0FF0 = 0) : formR op x y &&& 0xF00F = op := by
  apply BitVec.eq_of_getLsbD_eq
  intro i hi
  have hb := congrArg (fun w : Word => w.getLsbD i) h
  simp only [formR, BitVec.getLsbD_or, BitVec.getLsbD_and, BitVec.getLsbD_shiftLeft, BitVec.getLsbD_setWidth] at hb ⊢
  interval_cases i <;> simp_all

theorem fieldX_formR (op : Word) (x y : Reg) (h : op &&& 0x0FF0 = 0) : fieldX (formR op x y) = x := by
  apply BitVec.eq_of_getLsbD_eq
  intro i hi
  have hb := congrArg (fun w : Word => w.getLsbD (8 + i)) h
  simp only [formR, fieldX, BitVec.getLsbD_extractLsb', BitVec.getLsbD_or, BitVec.getLsbD_and, BitVec.getLsbD_shiftLeft, BitVec.getLsbD_setWidth] at hb ⊢
  interval_cases i <;> simp_all

theorem fieldY_formR (op : Word) (x y : Reg) (h : op &&& 0x0FF0 = 0) : fieldY (formR op x y) = y := by
  apply BitVec.eq_of_getLsbD_eq
  intro i hi
  have hb := congrArg (fun w : Word => w.getLsbD (4 + i)) h
  simp only [formR, fieldY, BitVec.getLsbD_extractLsb', BitVec.getLsbD_or, BitVec.getLsbD_and, BitVec.getLsbD_shiftLeft, BitVec.getLsbD_setWidth] at hb ⊢
  interval_cases i <;> simp_all

/-! ### Format `D` -/

theorem formD_mask (op : Word) (x y : Reg) (n : Nibble) (h : op &&& 0x0FFF = 0) : formD op x y n &&& 0xF000 = op := by
  apply BitVec.eq_of_getLsbD_eq
  intro i hi
  have hb := congrArg (fun w : Word => w.getLsbD i) h
  simp only [formD, BitVec.getLsbD_or, BitVec.getLsbD_and, BitVec.getLsbD_shiftLeft, BitVec.getLsbD_setWidth] at hb ⊢
  interval_cases i <;> simp_all

theorem fieldX_formD (op : Word) (x y : Reg) (n : Nibble) (h : op &&& 0x0FFF = 0) : fieldX (formD op x y n) = x := by
  apply BitVec.eq_of_getLsbD_eq
  intro i hi
  have hb := congrArg (fun w : Word => w.getLsbD (8 + i)) h
  simp only [formD, fieldX, BitVec.getLsbD_extractLsb', BitVec.getLsbD_or, BitVec.getLsbD_and, BitVec.getLsbD_shiftLeft, BitVec.getLsbD_setWidth] at hb ⊢
  interval_cases i <;> simp_all

theorem fieldY_formD (op : Word) (x y : Reg) (n : Nibble) (h : op &&& 0x0FFF = 0) : fieldY (formD op x y n) = y := by
  apply BitVec.eq_of_getLsbD_eq
  intro i hi
  have hb := congrArg (fun w : Word => w.getLsbD (4 + i)) h
  simp only [formD, fieldY, BitVec.getLsbD_extractLsb', BitVec.getLsbD_or, BitVec.getLsbD_and, BitVec.getLsbD_shiftLeft, BitVec.getLsbD_setWidth] at hb ⊢
  interval_cases i <;> simp_all

theorem fieldN_formD (op : Word) (x y : Reg) (n : Nibble) (h : op &&& 0x0FFF = 0) : fieldN (formD op x y n) = n := by
  apply BitVec.eq_of_getLsbD_eq
  intro i hi
  have hb := congrArg (fun w : Word => w.getLsbD (0 + i)) h
  simp only [formD, fieldN, BitVec.getLsbD_extractLsb', BitVec.getLsbD_or, BitVec.getLsbD_and, BitVec.getLsbD_shiftLeft, BitVec.getLsbD_setWidth] at hb ⊢
  interval_cases i <;> simp_all

/-! ### Format `U` -/

theorem formU_mask (op : Word) (x : Reg) (h : op &&& 0x0F00 = 0) : formU op x &&& 0xF0FF = op := by
  apply BitVec.eq_of_getLsbD_eq
  intro i hi
  have hb := congrArg (fun w : Word => w.getLsbD i) h
  simp only [formU, BitVec.getLsbD_or, BitVec.getLsbD_and, BitVec.getLsbD_shiftLeft, BitVec.getLsbD_setWidth] at hb ⊢
  interval_cases i <;> simp_all

theorem fieldX_formU (op : Word) (x : Reg) (h : op &&& 0x0F00 = 0) : fieldX (formU op x) = x := by
  apply BitVec.eq_of_getLsbD_eq
  intro i hi
  have hb := congrArg (fun w : Word => w.getLsbD (8 + i)) h
  simp only [formU, fieldX, BitVec.getLsbD_extractLsb', BitVec.getLsbD_or, BitVec.getLsbD_and, BitVec.getLsbD_shiftLeft, BitVec.getLsbD_setWidth] at hb ⊢
  interval_cases i <;> simp_all

end Sys2Proof
end

