-- ==== Sys2Proof/Laws/Frame.lean ====
section
/-! SUPPORT. What each instruction may change, said once: the pieces of state it may touch and the registers it may write, so that
a claim that something is left alone needs no case analysis of its own. -/

namespace Sys2Proof

open Sys2Proof.Machine

/-- The pieces of state an instruction may change when it raises no fault. -/
def Instr.touches : Instr → List Part
  | .clearScreen => [.fb, .changed, .pc]
  | .ret => [.sp, .pc]
  | .jump _ | .skipEqImm _ _ | .skipNeImm _ _ | .skipEqReg _ _ | .skipNeReg _ _ | .jumpOffset _ | .skipKeyPressed _
  | .skipKeyNotPressed _ => [.pc]
  | .call _ => [.stack, .sp, .pc]
  | .loadImm _ _ | .addImm _ _ | .move _ _ | .orReg _ _ | .andReg _ _ | .xorReg _ _ | .addReg _ _ | .subReg _ _
  | .shiftRight _ _ | .subReverse _ _ | .shiftLeft _ _ | .randomMasked _ _ | .readDelayTimer _ | .waitForKey _
  | .regLoad _ => [.v, .pc]
  | .loadIndexImm _ | .loadFontAddr _ => [.i, .pc]
  | .drawSprite _ _ _ => [.fb, .v, .changed, .pc]
  | .setDelayTimer _ => [.dt, .pc]
  | .setSoundTimer _ => [.st, .pc]
  | .addToIndex _ => [.i, .v, .pc]
  | .storeBcd _ | .regDump _ => [.mem, .pc]

end Sys2Proof

namespace Sys2Proof.Machine

open Sys2Proof

theorem KeepsRest.mono {ps qs : List Part} {s t : State} (h : KeepsRest ps s t) (hq : ∀ p ∈ ps, p ∈ qs) :
    KeepsRest qs s t := fun p hp => h p fun hm => hp (hq p hm)

theorem State.setRegs_same (bs : List Byte) (s : State) (k : Nat) : KeepsRest [.v] s (s.setRegs k bs) := by
  obtain ⟨v, hv⟩ := State.setRegs_eq bs s k
  rw [hv]
  intro p hp
  cases p <;> simp_all [Part.same, State.byte]

theorem State.takeFault_keeps (s : State) (f : Fault) : KeepsRest [.fault] s (s.takeFault f) := by
  intro p hp
  cases p <;> simp_all [Part.same]

/-- What an instruction can do to the state: it takes a fault, or it keeps every piece of state it does not touch. -/
theorem exec_frame {i : Instr} {s t : State} (h : exec i s = .next t) :
    (∃ f, t = s.takeFault f) ∨ KeepsRest i.touches s t := by
  cases i
  case ret =>
    by_cases hz : s.sp.val = 0
    · rw [exec_ret_of_zero hz] at h; cases h; exact .inl ⟨_, rfl⟩
    · rw [exec_ret_of_pos (by omega)] at h; cases h
      right; intro p hp; cases p <;> simp_all [Part.same, Instr.touches, State.reg, State.byte]
  case call nnn =>
    by_cases hz : s.sp.val < 16
    · rw [exec_call_of_lt nnn hz] at h; cases h
      right; intro p hp; cases p <;> simp_all [Part.same, Instr.touches, State.reg, State.byte]
    · rw [exec_call_of_full nnn (by omega)] at h; cases h; exact .inl ⟨_, rfl⟩
  case drawSprite x y n =>
    rw [exec_drawSprite_eq] at h; cases h
    split
    · right; intro p hp; cases p <;> simp_all [Part.same, Instr.touches]
    · exact .inl ⟨_, rfl⟩
  case storeBcd x =>
    rw [exec_storeBcd_eq] at h; cases h
    split
    · right; intro p hp; cases p <;> simp_all [Part.same, Instr.touches]
    · exact .inl ⟨_, rfl⟩
  case regDump x =>
    rw [exec_regDump_eq] at h; cases h
    split
    · right; intro p hp; cases p <;> simp_all [Part.same, Instr.touches]
    · exact .inl ⟨_, rfl⟩
  case regLoad x =>
    rw [exec_regLoad_eq] at h; cases h
    split
    · right; intro p hp
      have := State.setRegs_same (s.bytes s.i.toNat (x.toNat + 1)) s 0 p (by simp_all [Instr.touches])
      cases p <;> simp_all [Part.same, Instr.touches]
    · exact .inl ⟨_, rfl⟩
  case addToIndex x =>
    rw [exec_addToIndex_eq] at h; cases h
    split
    · exact .inl ⟨_, rfl⟩
    · right; intro p hp; cases p <;> simp_all [Part.same, Instr.touches]
  case skipKeyPressed x =>
    rw [exec_skipKeyPressed_eq] at h; cases h
    split
    · exact .inl ⟨_, rfl⟩
    · right; intro p hp; cases p <;> simp_all [Part.same, Instr.touches]
  case skipKeyNotPressed x =>
    rw [exec_skipKeyNotPressed_eq] at h; cases h
    split
    · exact .inl ⟨_, rfl⟩
    · right; intro p hp; cases p <;> simp_all [Part.same, Instr.touches]
  all_goals (cases h; right; intro p hp; cases p <;> simp_all [Part.same, Instr.touches])

/-- Around an instruction a step changes no piece of state but `changed` and the timers. -/
theorem step_frame_around (s t : State) :
    KeepsRest [.changed] s s.beginStep ∧ KeepsRest [.dt, .st] t t.endStep := by
  constructor <;> intro p hp <;> cases p <;> simp_all [Part.same]

end Sys2Proof.Machine
end

