-- ==== Sys2Proof/Laws/PerInstr.lean ====
section
/-! SUPPORT. The families of statements made per instruction. -/

namespace Sys2Proof.Laws

open Sys2Proof

/-- The instruction's word selects a row of the opcode map, and that row builds the instruction from the word (R96). -/
def EncodingMatches.Statement (i : Instr) : Prop :=
  ∃ r ∈ opcodeMap, encode i &&& r.mask = r.pattern ∧ r.build (encode i) = i

theorem EncodingMatches.clearScreen : Statement (.clearScreen) :=
  ⟨opcodeMap[0]'(by decide), List.getElem_mem _, by decide, rfl⟩

theorem EncodingMatches.ret : Statement (.ret) :=
  ⟨opcodeMap[1]'(by decide), List.getElem_mem _, by decide, rfl⟩

theorem EncodingMatches.jump (nnn : Addr12) : Statement (.jump nnn) :=
  ⟨opcodeMap[2]'(by decide), List.getElem_mem _, formA_mask 0x1000 nnn (by decide), by
    change Instr.jump (fieldNNN (formA 0x1000 nnn)) = _
    rw [fieldNNN_formA _ nnn (by decide)]⟩

theorem EncodingMatches.call (nnn : Addr12) : Statement (.call nnn) :=
  ⟨opcodeMap[3]'(by decide), List.getElem_mem _, formA_mask 0x2000 nnn (by decide), by
    change Instr.call (fieldNNN (formA 0x2000 nnn)) = _
    rw [fieldNNN_formA _ nnn (by decide)]⟩

theorem EncodingMatches.skipEqImm (x : Reg) (kk : Byte) : Statement (.skipEqImm x kk) :=
  ⟨opcodeMap[4]'(by decide), List.getElem_mem _, formI_mask 0x3000 x kk (by decide), by
    change Instr.skipEqImm (fieldX (formI 0x3000 x kk)) (fieldKK (formI 0x3000 x kk)) = _
    rw [fieldX_formI _ x kk (by decide), fieldKK_formI _ x kk (by decide)]⟩

theorem EncodingMatches.skipNeImm (x : Reg) (kk : Byte) : Statement (.skipNeImm x kk) :=
  ⟨opcodeMap[5]'(by decide), List.getElem_mem _, formI_mask 0x4000 x kk (by decide), by
    change Instr.skipNeImm (fieldX (formI 0x4000 x kk)) (fieldKK (formI 0x4000 x kk)) = _
    rw [fieldX_formI _ x kk (by decide), fieldKK_formI _ x kk (by decide)]⟩

theorem EncodingMatches.skipEqReg (x : Reg) (y : Reg) : Statement (.skipEqReg x y) :=
  ⟨opcodeMap[6]'(by decide), List.getElem_mem _, formR_mask 0x5000 x y (by decide), by
    change Instr.skipEqReg (fieldX (formR 0x5000 x y)) (fieldY (formR 0x5000 x y)) = _
    rw [fieldX_formR _ x y (by decide), fieldY_formR _ x y (by decide)]⟩

theorem EncodingMatches.loadImm (x : Reg) (kk : Byte) : Statement (.loadImm x kk) :=
  ⟨opcodeMap[7]'(by decide), List.getElem_mem _, formI_mask 0x6000 x kk (by decide), by
    change Instr.loadImm (fieldX (formI 0x6000 x kk)) (fieldKK (formI 0x6000 x kk)) = _
    rw [fieldX_formI _ x kk (by decide), fieldKK_formI _ x kk (by decide)]⟩

theorem EncodingMatches.addImm (x : Reg) (kk : Byte) : Statement (.addImm x kk) :=
  ⟨opcodeMap[8]'(by decide), List.getElem_mem _, formI_mask 0x7000 x kk (by decide), by
    change Instr.addImm (fieldX (formI 0x7000 x kk)) (fieldKK (formI 0x7000 x kk)) = _
    rw [fieldX_formI _ x kk (by decide), fieldKK_formI _ x kk (by decide)]⟩

theorem EncodingMatches.move (x : Reg) (y : Reg) : Statement (.move x y) :=
  ⟨opcodeMap[9]'(by decide), List.getElem_mem _, formR_mask 0x8000 x y (by decide), by
    change Instr.move (fieldX (formR 0x8000 x y)) (fieldY (formR 0x8000 x y)) = _
    rw [fieldX_formR _ x y (by decide), fieldY_formR _ x y (by decide)]⟩

theorem EncodingMatches.orReg (x : Reg) (y : Reg) : Statement (.orReg x y) :=
  ⟨opcodeMap[10]'(by decide), List.getElem_mem _, formR_mask 0x8001 x y (by decide), by
    change Instr.orReg (fieldX (formR 0x8001 x y)) (fieldY (formR 0x8001 x y)) = _
    rw [fieldX_formR _ x y (by decide), fieldY_formR _ x y (by decide)]⟩

theorem EncodingMatches.andReg (x : Reg) (y : Reg) : Statement (.andReg x y) :=
  ⟨opcodeMap[11]'(by decide), List.getElem_mem _, formR_mask 0x8002 x y (by decide), by
    change Instr.andReg (fieldX (formR 0x8002 x y)) (fieldY (formR 0x8002 x y)) = _
    rw [fieldX_formR _ x y (by decide), fieldY_formR _ x y (by decide)]⟩

theorem EncodingMatches.xorReg (x : Reg) (y : Reg) : Statement (.xorReg x y) :=
  ⟨opcodeMap[12]'(by decide), List.getElem_mem _, formR_mask 0x8003 x y (by decide), by
    change Instr.xorReg (fieldX (formR 0x8003 x y)) (fieldY (formR 0x8003 x y)) = _
    rw [fieldX_formR _ x y (by decide), fieldY_formR _ x y (by decide)]⟩

theorem EncodingMatches.addReg (x : Reg) (y : Reg) : Statement (.addReg x y) :=
  ⟨opcodeMap[13]'(by decide), List.getElem_mem _, formR_mask 0x8004 x y (by decide), by
    change Instr.addReg (fieldX (formR 0x8004 x y)) (fieldY (formR 0x8004 x y)) = _
    rw [fieldX_formR _ x y (by decide), fieldY_formR _ x y (by decide)]⟩

theorem EncodingMatches.subReg (x : Reg) (y : Reg) : Statement (.subReg x y) :=
  ⟨opcodeMap[14]'(by decide), List.getElem_mem _, formR_mask 0x8005 x y (by decide), by
    change Instr.subReg (fieldX (formR 0x8005 x y)) (fieldY (formR 0x8005 x y)) = _
    rw [fieldX_formR _ x y (by decide), fieldY_formR _ x y (by decide)]⟩

theorem EncodingMatches.shiftRight (x : Reg) (y : Reg) : Statement (.shiftRight x y) :=
  ⟨opcodeMap[15]'(by decide), List.getElem_mem _, formR_mask 0x8006 x y (by decide), by
    change Instr.shiftRight (fieldX (formR 0x8006 x y)) (fieldY (formR 0x8006 x y)) = _
    rw [fieldX_formR _ x y (by decide), fieldY_formR _ x y (by decide)]⟩

theorem EncodingMatches.subReverse (x : Reg) (y : Reg) : Statement (.subReverse x y) :=
  ⟨opcodeMap[16]'(by decide), List.getElem_mem _, formR_mask 0x8007 x y (by decide), by
    change Instr.subReverse (fieldX (formR 0x8007 x y)) (fieldY (formR 0x8007 x y)) = _
    rw [fieldX_formR _ x y (by decide), fieldY_formR _ x y (by decide)]⟩

theorem EncodingMatches.shiftLeft (x : Reg) (y : Reg) : Statement (.shiftLeft x y) :=
  ⟨opcodeMap[17]'(by decide), List.getElem_mem _, formR_mask 0x800E x y (by decide), by
    change Instr.shiftLeft (fieldX (formR 0x800E x y)) (fieldY (formR 0x800E x y)) = _
    rw [fieldX_formR _ x y (by decide), fieldY_formR _ x y (by decide)]⟩

theorem EncodingMatches.skipNeReg (x : Reg) (y : Reg) : Statement (.skipNeReg x y) :=
  ⟨opcodeMap[18]'(by decide), List.getElem_mem _, formR_mask 0x9000 x y (by decide), by
    change Instr.skipNeReg (fieldX (formR 0x9000 x y)) (fieldY (formR 0x9000 x y)) = _
    rw [fieldX_formR _ x y (by decide), fieldY_formR _ x y (by decide)]⟩

theorem EncodingMatches.loadIndexImm (nnn : Addr12) : Statement (.loadIndexImm nnn) :=
  ⟨opcodeMap[19]'(by decide), List.getElem_mem _, formA_mask 0xA000 nnn (by decide), by
    change Instr.loadIndexImm (fieldNNN (formA 0xA000 nnn)) = _
    rw [fieldNNN_formA _ nnn (by decide)]⟩

theorem EncodingMatches.jumpOffset (nnn : Addr12) : Statement (.jumpOffset nnn) :=
  ⟨opcodeMap[20]'(by decide), List.getElem_mem _, formA_mask 0xB000 nnn (by decide), by
    change Instr.jumpOffset (fieldNNN (formA 0xB000 nnn)) = _
    rw [fieldNNN_formA _ nnn (by decide)]⟩

theorem EncodingMatches.randomMasked (x : Reg) (kk : Byte) : Statement (.randomMasked x kk) :=
  ⟨opcodeMap[21]'(by decide), List.getElem_mem _, formI_mask 0xC000 x kk (by decide), by
    change Instr.randomMasked (fieldX (formI 0xC000 x kk)) (fieldKK (formI 0xC000 x kk)) = _
    rw [fieldX_formI _ x kk (by decide), fieldKK_formI _ x kk (by decide)]⟩

theorem EncodingMatches.drawSprite (x : Reg) (y : Reg) (n : Nibble) : Statement (.drawSprite x y n) :=
  ⟨opcodeMap[22]'(by decide), List.getElem_mem _, formD_mask 0xD000 x y n (by decide), by
    change Instr.drawSprite (fieldX (formD 0xD000 x y n)) (fieldY (formD 0xD000 x y n)) (fieldN (formD 0xD000 x y n)) = _
    rw [fieldX_formD _ x y n (by decide), fieldY_formD _ x y n (by decide), fieldN_formD _ x y n (by decide)]⟩

theorem EncodingMatches.skipKeyPressed (x : Reg) : Statement (.skipKeyPressed x) :=
  ⟨opcodeMap[23]'(by decide), List.getElem_mem _, formU_mask 0xE09E x (by decide), by
    change Instr.skipKeyPressed (fieldX (formU 0xE09E x)) = _
    rw [fieldX_formU _ x (by decide)]⟩

theorem EncodingMatches.skipKeyNotPressed (x : Reg) : Statement (.skipKeyNotPressed x) :=
  ⟨opcodeMap[24]'(by decide), List.getElem_mem _, formU_mask 0xE0A1 x (by decide), by
    change Instr.skipKeyNotPressed (fieldX (formU 0xE0A1 x)) = _
    rw [fieldX_formU _ x (by decide)]⟩

theorem EncodingMatches.readDelayTimer (x : Reg) : Statement (.readDelayTimer x) :=
  ⟨opcodeMap[25]'(by decide), List.getElem_mem _, formU_mask 0xF007 x (by decide), by
    change Instr.readDelayTimer (fieldX (formU 0xF007 x)) = _
    rw [fieldX_formU _ x (by decide)]⟩

theorem EncodingMatches.waitForKey (x : Reg) : Statement (.waitForKey x) :=
  ⟨opcodeMap[26]'(by decide), List.getElem_mem _, formU_mask 0xF00A x (by decide), by
    change Instr.waitForKey (fieldX (formU 0xF00A x)) = _
    rw [fieldX_formU _ x (by decide)]⟩

theorem EncodingMatches.setDelayTimer (x : Reg) : Statement (.setDelayTimer x) :=
  ⟨opcodeMap[27]'(by decide), List.getElem_mem _, formU_mask 0xF015 x (by decide), by
    change Instr.setDelayTimer (fieldX (formU 0xF015 x)) = _
    rw [fieldX_formU _ x (by decide)]⟩

theorem EncodingMatches.setSoundTimer (x : Reg) : Statement (.setSoundTimer x) :=
  ⟨opcodeMap[28]'(by decide), List.getElem_mem _, formU_mask 0xF018 x (by decide), by
    change Instr.setSoundTimer (fieldX (formU 0xF018 x)) = _
    rw [fieldX_formU _ x (by decide)]⟩

theorem EncodingMatches.addToIndex (x : Reg) : Statement (.addToIndex x) :=
  ⟨opcodeMap[29]'(by decide), List.getElem_mem _, formU_mask 0xF01E x (by decide), by
    change Instr.addToIndex (fieldX (formU 0xF01E x)) = _
    rw [fieldX_formU _ x (by decide)]⟩

theorem EncodingMatches.loadFontAddr (x : Reg) : Statement (.loadFontAddr x) :=
  ⟨opcodeMap[30]'(by decide), List.getElem_mem _, formU_mask 0xF029 x (by decide), by
    change Instr.loadFontAddr (fieldX (formU 0xF029 x)) = _
    rw [fieldX_formU _ x (by decide)]⟩

theorem EncodingMatches.storeBcd (x : Reg) : Statement (.storeBcd x) :=
  ⟨opcodeMap[31]'(by decide), List.getElem_mem _, formU_mask 0xF033 x (by decide), by
    change Instr.storeBcd (fieldX (formU 0xF033 x)) = _
    rw [fieldX_formU _ x (by decide)]⟩

theorem EncodingMatches.regDump (x : Reg) : Statement (.regDump x) :=
  ⟨opcodeMap[32]'(by decide), List.getElem_mem _, formU_mask 0xF055 x (by decide), by
    change Instr.regDump (fieldX (formU 0xF055 x)) = _
    rw [fieldX_formU _ x (by decide)]⟩

theorem EncodingMatches.regLoad (x : Reg) : Statement (.regLoad x) :=
  ⟨opcodeMap[33]'(by decide), List.getElem_mem _, formU_mask 0xF065 x (by decide), by
    change Instr.regLoad (fieldX (formU 0xF065 x)) = _
    rw [fieldX_formU _ x (by decide)]⟩

end Sys2Proof.Laws
end

