-- ==== Sys2Proof/Tests/Slice0.lean ====
section
/-! SUPPORT. Tests: the spec's own vectors (spec/95_test_vectors.md, S and T numbers), the words of the opcode table, and the
smoke test of well-formedness. Expected values are the spec's. -/

namespace Sys2Proof.Tests

open Sys2Proof Sys2Proof.Machine

/-! ### Well-formedness: one ill-formed term for each check -/

theorem test_fields_wf_accepts : Fields.wf { nnn := 4095, kk := 255, x := 15, y := 15, n := 15 } = true := by decide
theorem test_fields_wf_refuses_nnn : Fields.wf { nnn := 4096 } = false := by decide
theorem test_fields_wf_refuses_kk : Fields.wf { kk := 256 } = false := by decide
theorem test_fields_wf_refuses_x : Fields.wf { x := 16 } = false := by decide
theorem test_fields_wf_refuses_y : Fields.wf { y := 16 } = false := by decide
theorem test_fields_wf_refuses_n : Fields.wf { n := 16 } = false := by decide

/-! ### Decoding: every row, a word written out from the table's `encoding` bits -/

theorem test_decode_control :
    decodeWord 0b0000000011100000 = .ok .clearScreen ∧ decodeWord 0b0000000011101110 = .ok .ret ∧
    decodeWord 0b0001101010111100 = .ok (.jump 0xABC) ∧ decodeWord 0b0010001100000000 = .ok (.call 0x300) ∧
    decodeWord 0b0011001101000010 = .ok (.skipEqImm 3 0x42) ∧ decodeWord 0b0100001101000010 = .ok (.skipNeImm 3 0x42) ∧
    decodeWord 0b0101000100100000 = .ok (.skipEqReg 1 2) ∧ decodeWord 0b1001000100100000 = .ok (.skipNeReg 1 2) ∧
    decodeWord 0b1011001100000000 = .ok (.jumpOffset 0x300) := by decide

theorem test_decode_alu :
    decodeWord 0b0110101001000010 = .ok (.loadImm 0xA 0x42) ∧ decodeWord 0b0111000100100000 = .ok (.addImm 1 0x20) ∧
    decodeWord 0b1000000100100000 = .ok (.move 1 2) ∧ decodeWord 0b1000000100100001 = .ok (.orReg 1 2) ∧
    decodeWord 0b1000000100100010 = .ok (.andReg 1 2) ∧ decodeWord 0b1000000100100011 = .ok (.xorReg 1 2) ∧
    decodeWord 0b1000000100100100 = .ok (.addReg 1 2) ∧ decodeWord 0b1000000100100101 = .ok (.subReg 1 2) ∧
    decodeWord 0b1000010001110110 = .ok (.shiftRight 4 7) ∧ decodeWord 0b1000000100100111 = .ok (.subReverse 1 2) ∧
    decodeWord 0b1000010001111110 = .ok (.shiftLeft 4 7) ∧ decodeWord 0b1100001111110000 = .ok (.randomMasked 3 0xF0) := by
  decide

theorem test_decode_index_display :
    decodeWord 0b1010000001010000 = .ok (.loadIndexImm 0x050) ∧ decodeWord 0b1101000100100101 = .ok (.drawSprite 1 2 5) ∧
    decodeWord 0b1111000100011110 = .ok (.addToIndex 1) ∧ decodeWord 0b1111001000101001 = .ok (.loadFontAddr 2) ∧
    decodeWord 0b1111001000110011 = .ok (.storeBcd 2) ∧ decodeWord 0b1111000101010101 = .ok (.regDump 1) ∧
    decodeWord 0b1111010001100101 = .ok (.regLoad 4) := by decide

theorem test_decode_keys_timers :
    decodeWord 0b1110000010011110 = .ok (.skipKeyPressed 0) ∧ decodeWord 0b1110000010100001 = .ok (.skipKeyNotPressed 0) ∧
    decodeWord 0b1111000100000111 = .ok (.readDelayTimer 1) ∧ decodeWord 0b1111010000001010 = .ok (.waitForKey 4) ∧
    decodeWord 0b1111000000010101 = .ok (.setDelayTimer 0) ∧ decodeWord 0b1111010100011000 = .ok (.setSoundTimer 5) := by
  decide

/-- T2, T3 and the notes below T10: words that select no row are refused by name. -/
theorem test_decode_unknown :
    decodeWord 0x8128 = .error (.unknown 0x8128) ∧ decodeWord 0xE19F = .error (.unknown 0xE19F) ∧
    decodeWord 0xF100 = .error (.unknown 0xF100) ∧ decodeWord 0x0123 = .error (.unknown 0x0123) := by decide

theorem test_decode_unknown_more :
    decodeWord 0x00E1 = .error (.unknown 0x00E1) ∧ decodeWord 0x9121 = .error (.unknown 0x9121) ∧
    decodeWord 0x5AB1 = .error (.unknown 0x5AB1) ∧ decodeWord 0xFFFF = .error (.unknown 0xFFFF) := by decide

theorem test_decode_truncated : decode [0x12] = .error .truncated ∧ decode [] = .error .truncated := by decide

/-! ### One step on a small state -/

/-- The state after a step, or the start state where the step does not answer a next state. -/
def after (s : State) : State :=
  match step s with
  | .next t => t
  | .fault _ => s
  | .refused _ => s

/-- The state after one step of the word `w` placed at `pc`. -/
def stepWord (w : Nat) (s : State) : State := after (s.withFetchWord 16 w)

/-- The reset state with `V[1]` and `V[2]` set. -/
def withV12 (a b : Byte) : State := (State.reset.setReg 1 a).setReg 2 b

/-- The reset state with the inputs of the next step set. -/
def withInputs (keys : BitVec 16) (rnd : Byte) : State := { State.reset with inputs := [⟨keys, rnd⟩] }

/-- T1, T2. -/
theorem test_fallback : (stepWord 0x5AB1 { State.reset with dt := 5 }).pc = 0x202 ∧
    (stepWord 0x5AB1 { State.reset with dt := 5 }).dt = 4 := by decide

/-- T5, T7. -/
theorem test_fetch_fault : (after { State.reset with pc := 4095, dt := 5 }).fault = some ⟨3, 4095, 4096⟩ ∧
    (after { State.reset with pc := 4095, dt := 5 }).dt = 5 ∧
    (after { State.reset with pc := 0x10FE }).fault = some ⟨3, 0x10FE, 0x10FE⟩ := by decide

/-- T9: an odd `pc`. -/
theorem test_odd_pc : (stepWord 0x60AB { State.reset with pc := 0x203 }).reg 0 = 0xAB ∧
    (stepWord 0x60AB { State.reset with pc := 0x203 }).pc = 0x205 := by decide

/-- T10. -/
theorem test_latched : (after { State.reset with fault := some ⟨2, 0x200, 0⟩, dt := 9, changed := true }).fault
      = some ⟨2, 0x200, 0⟩ ∧
    (after { State.reset with fault := some ⟨2, 0x200, 0⟩, dt := 9, changed := true }).changed = false ∧
    (after { State.reset with fault := some ⟨2, 0x200, 0⟩, dt := 9, changed := true }).dt = 9 := by decide

/-- T20. -/
theorem test_ret : (stepWord 0x00EE { State.reset with sp := 1, stack := State.reset.stack.set 0 0x0202 }).pc = 0x202 ∧
    (stepWord 0x00EE { State.reset with sp := 1, stack := State.reset.stack.set 0 0x0202 }).sp = 0 := by decide

/-- T21. -/
theorem test_ret_underflow : (stepWord 0x00EE State.reset).fault = some ⟨2, 0x200, 0⟩ ∧
    (stepWord 0x00EE State.reset).pc = 0x200 := by decide

/-- T22. -/
theorem test_jump : (stepWord 0x1ABC State.reset).pc = 0x0ABC := by decide

/-- T26. -/
theorem test_call : (stepWord 0x2300 { State.reset with sp := 15 }).stack[15] = 0x0202 ∧
    (stepWord 0x2300 { State.reset with sp := 15 }).sp = 16 ∧
    (stepWord 0x2300 { State.reset with sp := 15 }).pc = 0x300 := by decide

/-- T27. -/
theorem test_call_overflow : (stepWord 0x2300 { State.reset with sp := 16 }).fault = some ⟨1, 0x200, 0⟩ ∧
    (stepWord 0x2300 { State.reset with sp := 16 }).sp = 16 := by decide

/-- T29, T30. -/
theorem test_skip_eq_imm : (stepWord 0x3342 (State.reset.setReg 3 0x42)).pc = 0x204 ∧
    (stepWord 0x3342 (State.reset.setReg 3 0x41)).pc = 0x202 := by decide

/-- T31, T32. -/
theorem test_skip_ne_imm : (stepWord 0x4342 (State.reset.setReg 3 0x42)).pc = 0x202 ∧
    (stepWord 0x4300 (State.reset.setReg 3 0x42)).pc = 0x204 := by decide

/-- T33, T34. -/
theorem test_skip_eq_reg : (stepWord 0x5120 (withV12 7 7)).pc = 0x204 ∧ (stepWord 0x5120 (withV12 7 8)).pc = 0x202 := by
  decide

/-- T36, T37. -/
theorem test_skip_ne_reg : (stepWord 0x9120 (withV12 7 8)).pc = 0x204 ∧ (stepWord 0x9120 (withV12 7 7)).pc = 0x202 := by
  decide

/-- T40, T41. -/
theorem test_jump_offset : (stepWord 0xB300 (State.reset.setReg 0 0x10)).pc = 0x0310 ∧
    (stepWord 0xBFFF (State.reset.setReg 0 0xFF)).pc = 0x10FE := by decide

/-- T51: a plain load of register 15. -/
theorem test_load_imm : (stepWord 0x6F00 (State.reset.setReg 15 1)).reg 15 = 0 := by decide

/-- T52. -/
theorem test_add_imm : (stepWord 0x7120 ((State.reset.setReg 1 0xF0).setReg 15 1)).reg 1 = 0x10 ∧
    (stepWord 0x7120 ((State.reset.setReg 1 0xF0).setReg 15 1)).reg 15 = 1 := by decide

/-- T55. -/
theorem test_move : (stepWord 0x8120 (withV12 0 0x33)).reg 1 = 0x33 ∧ (stepWord 0x8120 (withV12 0 0x33)).reg 2 = 0x33 := by
  decide

/-- T56, T57, T58. -/
theorem test_logic : (stepWord 0x8121 ((withV12 0x0F 0xF0).setReg 15 1)).reg 1 = 0xFF ∧
    (stepWord 0x8121 ((withV12 0x0F 0xF0).setReg 15 1)).reg 15 = 1 ∧
    (stepWord 0x8122 (withV12 0x3C 0x0F)).reg 1 = 0x0C ∧ (stepWord 0x8123 (withV12 0xFF 0x0F)).reg 1 = 0xF0 := by decide

/-- T60, T63. -/
theorem test_add : (stepWord 0x8124 (withV12 0xFF 1)).reg 1 = 0 ∧ (stepWord 0x8124 (withV12 0xFF 1)).reg 15 = 1 ∧
    (stepWord 0x8124 ((withV12 0 0).setReg 15 1)).reg 15 = 0 := by decide

/-- T65, T66: register 15 as an operand. -/
theorem test_add_flag_operand : (stepWord 0x8F14 ((State.reset.setReg 1 0x20).setReg 15 0xF0)).reg 15 = 1 ∧
    (stepWord 0x81F4 ((State.reset.setReg 1 0x20).setReg 15 0xF0)).reg 1 = 0x10 := by decide

/-- T67, T68, T69. -/
theorem test_sub : (stepWord 0x8125 (withV12 5 3)).reg 1 = 2 ∧ (stepWord 0x8125 (withV12 5 3)).reg 15 = 1 ∧
    (stepWord 0x8125 ((withV12 5 5).setReg 15 1)).reg 15 = 0 ∧ (stepWord 0x8125 (withV12 0 1)).reg 1 = 0xFF := by decide

/-- T74. -/
theorem test_shift_right : (stepWord 0x8476 ((State.reset.setReg 4 1).setReg 7 0xAA)).reg 4 = 0 ∧
    (stepWord 0x8476 ((State.reset.setReg 4 1).setReg 7 0xAA)).reg 15 = 1 := by decide

/-- T76, T77, T78. -/
theorem test_sub_reverse : (stepWord 0x8127 (withV12 5 3)).reg 1 = 0xFE ∧
    (stepWord 0x8127 ((withV12 5 5).setReg 15 1)).reg 15 = 0 ∧ (stepWord 0x8127 (withV12 0 0xFF)).reg 15 = 1 := by decide

/-- T79, T82. -/
theorem test_shift_left : (stepWord 0x840E (State.reset.setReg 4 0x81)).reg 4 = 2 ∧
    (stepWord 0x840E (State.reset.setReg 4 0x81)).reg 15 = 1 ∧ (stepWord 0x8F0E (State.reset.setReg 15 0x81)).reg 15 = 1 := by
  decide

/-- T83. -/
theorem test_random : (stepWord 0xC3F0 (withInputs 0 0xAB)).reg 3 = 0xA0 := by decide

/-- T90. -/
theorem test_load_index : (stepWord 0xA050 State.reset).i = 0x0050 := by decide

/-- T93, T94, T97. -/
theorem test_add_to_index : (stepWord 0xF11E ((State.reset.setIndex 0x0EFF).setReg 1 1)).reg 15 = 0 ∧
    (stepWord 0xF11E ((State.reset.setIndex 0x0EFF).setReg 1 2)).reg 15 = 1 ∧
    (stepWord 0xF11E ((State.reset.setIndex 0xFF01).setReg 1 0xFE)).i = 0xFFFF := by decide

/-- T98. -/
theorem test_add_to_index_fault :
    (stepWord 0xF11E ((State.reset.setIndex 0xFF01).setReg 1 0xFF)).fault = some ⟨5, 0x200, 65536⟩ ∧
    (stepWord 0xF11E ((State.reset.setIndex 0xFF01).setReg 1 0xFF)).i = 0xFF01 := by decide

/-- T99, T101. -/
theorem test_load_font_addr : (stepWord 0xF229 (State.reset.setReg 2 0x0A)).i = 0x0032 ∧
    (stepWord 0xF229 (State.reset.setReg 2 0xFF)).i = 0x04FB := by decide

/-- T103. -/
theorem test_store_bcd :
    (stepWord 0xF233 ((State.reset.setReg 2 123).setIndex 4093)).bytes 4093 3 = [1, 2, 3] := by decide

/-- T104, T105. -/
theorem test_store_bcd_fault : (stepWord 0xF233 ((State.reset.setReg 2 123).setIndex 4094)).fault = some ⟨4, 0x200, 4096⟩ ∧
    (stepWord 0xF233 ((State.reset.setReg 2 123).setIndex 4094)).bytes 4094 2 = [0, 0] ∧
    (stepWord 0xF233 ((State.reset.setReg 2 123).setIndex 5000)).fault = some ⟨4, 0x200, 5000⟩ := by decide

/-- T106, T109. -/
theorem test_reg_dump : (stepWord 0xF155 ((State.reset.setReg 1 0x0F).setIndex 0x300)).bytes 0x300 2 = [0, 0x0F] ∧
    (stepWord 0xF555 ((State.reset.setReg 5 7).setIndex 4090)).byte 4095 = 7 := by decide

/-- T110. -/
theorem test_reg_dump_fault : (stepWord 0xF655 ((State.reset.setReg 0 7).setIndex 4090)).fault = some ⟨4, 0x200, 4096⟩ ∧
    (stepWord 0xF655 ((State.reset.setReg 0 7).setIndex 4090)).byte 4090 = 0 := by decide

/-- T111. -/
theorem test_reg_load : (stepWord 0xF465 ((State.reset.setIndex 0).setReg 5 9)).regs 6 = [0xF0, 0x90, 0x90, 0x90, 0xF0, 9] := by
  decide

/-- T112. -/
theorem test_reg_load_fault : (stepWord 0xFF65 (State.reset.setIndex 4081)).fault = some ⟨4, 0x200, 4096⟩ := by decide

/-- T120. -/
theorem test_clear : (stepWord 0x00E0 ((State.reset.setFb (Vector.replicate 32 5)).setReg 15 1)).fb = Framebuffer.blank ∧
    (stepWord 0x00E0 ((State.reset.setFb (Vector.replicate 32 5)).setReg 15 1)).changed = true ∧
    (stepWord 0x00E0 ((State.reset.setFb (Vector.replicate 32 5)).setReg 15 1)).reg 15 = 1 := by decide

/-- The state of T124: bytes FF 81 at 0x300, drawn from there at (62, 31). -/
def cornerDraw : State :=
  stepWord 0xD012
    { ((State.reset.setIndex 0x300).setReg 0 62).setReg 1 31 with mem := [(0x300, 0xFF), (0x301, 0x81)] }

/-- T124: columns 62, 63, 0 to 5 of row 31 and, wrapped, columns 62 and 5 of row 0. -/
theorem test_draw_wraps : cornerDraw.fb[31] = 0xC00000000000003F ∧ cornerDraw.fb[0] = 0x4000000000000020 ∧
    cornerDraw.fb[1] = 0 ∧ cornerDraw.reg 15 = 0 ∧ cornerDraw.changed = true := by decide

/-- T126: a collision. -/
theorem test_draw_collides :
    (stepWord 0xD011 { State.reset with i := 0x300, mem := [(0x300, 0xF0)], fb := State.reset.fb.set 0 8 }).fb[0] = 7 ∧
    (stepWord 0xD011 { State.reset with i := 0x300, mem := [(0x300, 0xF0)], fb := State.reset.fb.set 0 8 }).reg 15 = 1 := by
  decide

/-- T128, T129. -/
theorem test_draw_no_rows : (stepWord 0xD010 ((State.reset.setIndex 5000).setReg 15 7)).reg 15 = 0 ∧
    (stepWord 0xD010 ((State.reset.setIndex 5000).setReg 15 7)).changed = true ∧
    (stepWord 0xD011 ((State.reset.setIndex 5000).setReg 15 7)).fault = some ⟨4, 0x200, 5000⟩ ∧
    (stepWord 0xD011 ((State.reset.setIndex 5000).setReg 15 7)).reg 15 = 7 := by decide

/-- T140, T142, T143. -/
theorem test_skip_key_pressed : (stepWord 0xE09E ((withInputs 0x0080 0).setReg 0 7)).pc = 0x204 ∧
    (stepWord 0xE09E ((withInputs 0xFF7F 0).setReg 0 7)).pc = 0x202 ∧
    (stepWord 0xE09E ((withInputs 0x8000 0).setReg 0 15)).pc = 0x204 := by decide

/-- T145, T146. -/
theorem test_skip_key_not_pressed : (stepWord 0xE0A1 ((withInputs 0x0080 0).setReg 0 7)).pc = 0x202 ∧
    (stepWord 0xE0A1 ((withInputs 0 0).setReg 0 7)).pc = 0x204 := by decide

/-- T144, T147. -/
theorem test_key_fault : (stepWord 0xE09E ((withInputs 0 0).setReg 0 16)).fault = some ⟨6, 0x200, 16⟩ ∧
    (stepWord 0xE0A1 ((withInputs 0 0).setReg 0 0xFF)).fault = some ⟨6, 0x200, 255⟩ := by decide

/-- T148. -/
theorem test_read_delay : (stepWord 0xF107 { State.reset with dt := 2 }).reg 1 = 2 ∧
    (stepWord 0xF107 { State.reset with dt := 2 }).dt = 1 := by decide

/-- T150, T151. -/
theorem test_wait_for_key : (stepWord 0xF40A ((withInputs 0x00A0 0).setReg 4 0x33)).reg 4 = 5 ∧
    (stepWord 0xF40A ((withInputs 0 0).setReg 4 0x33)).reg 4 = 0x33 ∧
    (stepWord 0xF40A ((withInputs 0 0).setReg 4 0x33)).pc = 0x202 := by decide

/-- T154, T156. -/
theorem test_set_delay : (stepWord 0xF015 (State.reset.setReg 0 3)).dt = 2 ∧
    (stepWord 0xF015 { State.reset with dt := 9 }).dt = 0 := by decide

/-- T158, T159. -/
theorem test_set_sound : (stepWord 0xF518 (State.reset.setReg 5 2)).st = 1 ∧
    (stepWord 0xF518 (State.reset.setReg 5 2)).tone = true ∧ (stepWord 0xF518 (State.reset.setReg 5 1)).tone = false := by
  decide

/-- T170. -/
theorem test_reset : State.reset.bytes 0 5 = [0xF0, 0x90, 0x90, 0x90, 0xF0] ∧
    State.reset.bytes 0x4B 6 = [0xF0, 0x80, 0xF0, 0x80, 0x80, 0] ∧ State.reset.faultOutputs.code = 0 := by decide

/-- An instance with another `FONT`: the font area reads as it, register-load sees it, and reset and a store keep it (R6, R72). -/
def otherFont : State := { State.reset with font := Vector.replicate 80 0xAA }

theorem test_other_font : otherFont.bytes 79 2 = [0xAA, 0] ∧ otherFont.resetPort.byte 0 = 0xAA ∧
    (stepWord 0xF165 (otherFont.setIndex 78)).regs 2 = [0xAA, 0xAA] ∧
    (stepWord 0xF055 (otherFont.setIndex 0)).bytes 0 2 = [0, 0xAA] := by decide

/-- T171, T174: a load, and a load after a step. -/
theorem test_load : (match State.reset.loadPort [0x60, 0x0A, 0xA0] with
      | .next t => t.bytes 0x200 4
      | _ => []) = [0x60, 0x0A, 0xA0, 0] ∧
    (match (after State.reset).loadPort [0x60] with
      | .refused r => decide (r = .loadNotPristine)
      | _ => false) = true := by decide

/-! ### Witnesses: a state and operands that meet the hypotheses of each statement, one per clause, at the ends of its range -/

/-- The reset state with the word `w` at `pc`. -/
def atReset (w : Nat) : State := State.reset.withFetchWord 16 w

/-- `State.Runs` as a conjunction that can be evaluated. -/
theorem runs_iff (s : State) (i : Instr) :
    s.Runs i ↔ s.fault = none ∧ s.pc.toNat ≤ 4094 ∧ decodeWord s.wordAtPc = .ok i := Iff.rfl

theorem test_hyp_DecodeOfEncodedBytes : (Instr.drawSprite 15 15 15).wf = true ∧ (Instr.jump 0xFFF).wf = true := by decide

theorem test_hyp_EncodeOfDecodedWord : decodeWord 0x8476 = .ok (.shiftRight 4 7) ∧ decodeWord 0xFF65 = .ok (.regLoad 15) := by
  decide

theorem test_hyp_DecodeFollowsTheMap : (opcodeMap.any fun r => decide ((0x00E0 : Word) &&& r.mask = r.pattern)) = true ∧
    (∀ r ∈ opcodeMap, (0xFFFF : Word) &&& r.mask ≠ r.pattern) := by decide

theorem test_hyp_StepRunsDecodedInstruction : (atReset 0x1ABC).Runs (.jump 0xABC) ∧ (Instr.jump 0xABC).wf = true ∧
    ({ State.reset with pc := 4094, mem := [(4094, 0x00), (4095, 0xE0)] } : State).Runs .clearScreen := by
  simp only [runs_iff]; decide

theorem test_hyp_UnknownWordIsNoOp : State.reset.fault = none ∧ State.reset.pc.toNat ≤ 4094 ∧
    decodeWord State.reset.wordAtPc = .error (.unknown State.reset.wordAtPc) := by decide

theorem test_hyp_FetchBeyondMemoryFaults : ({ State.reset with pc := 4095 } : State).fault = none ∧
    4094 < ({ State.reset with pc := 4095 } : State).pc.toNat ∧ 4094 < ({ State.reset with pc := 4096 } : State).pc.toNat := by
  decide

/-- A latched machine. -/
def latched : State := { State.reset with fault := some ⟨2, 0x200, 0⟩, dt := 9 }

theorem test_hyp_LatchedFaultIsSticky : latched.fault = some ⟨2, 0x200, 0⟩ := by decide

/-- A step that answers a next state. -/
theorem step_of_after {s : State} (h : ∃ t, step s = .next t) : step s = .next (after s) := by
  obtain ⟨t, ht⟩ := h; simp only [after, ht]

theorem test_hyp_FaultingStepIsPrecise : (atReset 0x00EE).fault = none ∧ step (atReset 0x00EE) = .next (after (atReset 0x00EE)) ∧
    (after (atReset 0x00EE)).fault ≠ none :=
  ⟨by decide, step_of_after ⟨_, rfl⟩, by decide⟩

theorem test_hyp_FaultCausesAreExact : (atReset 0x00EE).Runs .ret ∧ step (atReset 0x00EE) = .next (after (atReset 0x00EE)) :=
  ⟨by rw [runs_iff]; decide, step_of_after ⟨_, rfl⟩⟩

/-- `SafeStep` of a step that answers a next state without a fault. -/
theorem safeStep_after {s : State} (h : ∃ t, step s = .next t) (h0 : s.fault = none) (h1 : (after s).fault = none) :
    SafeStep s (after s) := ⟨h0, step_of_after h, h1⟩

theorem test_hyp_TimersTickEveryStep : SafeStep (atReset 0x1ABC) (after (atReset 0x1ABC)) ∧
    ¬ (∃ x, (atReset 0x1ABC).Runs (.setDelayTimer x)) ∧ ¬ ∃ x, (atReset 0x1ABC).Runs (.setSoundTimer x) :=
  ⟨safeStep_after ⟨_, rfl⟩ (by decide) (by decide), fun ⟨x, h⟩ => by revert h; rw [runs_iff]; revert x; decide,
    fun ⟨x, h⟩ => by revert h; rw [runs_iff]; revert x; decide⟩

theorem test_hyp_TimersTickEveryStep_set : SafeStep (atReset 0xF015) (after (atReset 0xF015)) ∧
    (atReset 0xF015).Runs (.setDelayTimer 0) ∧ SafeStep (atReset 0xF518) (after (atReset 0xF518)) ∧
    (atReset 0xF518).Runs (.setSoundTimer 5) :=
  ⟨safeStep_after ⟨_, rfl⟩ (by decide) (by decide), by rw [runs_iff]; decide,
    safeStep_after ⟨_, rfl⟩ (by decide) (by decide), by rw [runs_iff]; decide⟩

theorem test_hyp_TimersTickEveryStep_read : SafeStep (atReset 0xF107) (after (atReset 0xF107)) ∧
    (atReset 0xF107).Runs (.readDelayTimer 1) :=
  ⟨safeStep_after ⟨_, rfl⟩ (by decide) (by decide), by rw [runs_iff]; decide⟩

/-- A step on a lit framebuffer that clears it. -/
def lit : State := { atReset 0x00E0 with fb := Vector.replicate 32 5 }

/-- Also for ChangedMarksDisplayWrites and SnapshotOfAStep (their hypothesis is the first clause). -/
theorem test_hyp_FramebufferHasTwoWriters : step lit = .next (after lit) ∧ (after lit).fb ≠ lit.fb :=
  ⟨step_of_after ⟨_, rfl⟩, by decide⟩

/-- What `loadPort` leaves, or the start state where it refuses. -/
def loaded (s : State) (rom : List Byte) : State :=
  match s.loadPort rom with
  | .next t => t
  | .fault _ => s
  | .refused _ => s

/-- Also for DriverMovesKeepInvariant and the load clause of FramebufferHasTwoWriters. -/
theorem test_hyp_LoadPlacesTheRomOnce : State.reset.loadOpen = true ∧ State.reset.memWf = true ∧
    State.reset.loadPort [0x60, 0x0A] = .next (loaded State.reset [0x60, 0x0A]) ∧ (0 : Nat) < [(0x60 : Byte), 0x0A].length ∧
    step State.reset = .next (after State.reset) :=
  ⟨by decide, by decide, rfl, by decide, step_of_after ⟨_, rfl⟩⟩

theorem test_hyp_StackMovesOnlyByCallAndReturn : step (atReset 0x2300) = .next (after (atReset 0x2300)) ∧
    (after (atReset 0x2300)).sp ≠ (atReset 0x2300).sp ∧ (after (atReset 0x2300)).stack[0] ≠ (atReset 0x2300).stack[0] :=
  ⟨step_of_after ⟨_, rfl⟩, by decide, by decide⟩

/-- A store-bcd of 123 at the top of memory. -/
def bcdTop : State := ((State.reset.setReg 2 123).setIndex 4093).withFetchWord 16 0xF233

/-- A register-dump of `V[0]` to `V[1]` at the top of memory. -/
def dumpTop : State := (((State.reset.setReg 0 7).setReg 1 9).setIndex 4094).withFetchWord 16 0xF155

theorem test_hyp_MemoryHasTwoWriters : step bcdTop = .next (after bcdTop) ∧ (after bcdTop).byte 4095 ≠ bcdTop.byte 4095 ∧
    step dumpTop = .next (after dumpTop) ∧ (after dumpTop).byte 4095 ≠ dumpTop.byte 4095 :=
  ⟨step_of_after ⟨_, rfl⟩, by decide, step_of_after ⟨_, rfl⟩, by decide⟩

theorem test_hyp_RegistersChangeOnlyAsDestinations : step (atReset 0x6F01) = .next (after (atReset 0x6F01)) ∧
    (after (atReset 0x6F01)).reg 15 ≠ (atReset 0x6F01).reg 15 :=
  ⟨step_of_after ⟨_, rfl⟩, by decide⟩

theorem test_hyp_IndexHasThreeWriters : step (atReset 0xA050) = .next (after (atReset 0xA050)) ∧
    (after (atReset 0xA050)).i ≠ (atReset 0xA050).i :=
  ⟨step_of_after ⟨_, rfl⟩, by decide⟩

theorem test_hyp_InputsReachOnlyTheirReaders : ¬ (Instr.randomMasked 3 0xFF).readsKeys ∧ ¬ (Instr.waitForKey 4).readsRnd ∧
    ∃ t, exec (.randomMasked 3 0xFF) { State.reset with inputs := ⟨0x8000, 0xAB⟩ :: [] } = .next t := by
  refine ⟨?_, ?_, _, rfl⟩
  · rintro (⟨x, h⟩ | ⟨x, h⟩ | ⟨x, h⟩) <;> cases h
  · rintro ⟨x, kk, h⟩; cases h

theorem test_hyp_StepTakesTheDriversInputs : ∃ t, (atReset 0xC3F0).stepPort 0xFFFF 0xAB = .next t ∧ t.reg 3 = 0xA0 :=
  ⟨_, rfl, by decide⟩

/-- The reset state with a word placed at `pc` meets the invariant, once a load has ended the load phase. -/
theorem inv_of_plain {s : State} (h1 : s.memWf = true) (h2 : s.pc.toNat ≤ 0x10FE) (h3 : s.stack = State.reset.stack)
    (h4 : s.fault = none) (h5 : s.loadOpen = false) : s.Inv :=
  ⟨h1, h2, fun k h => by rw [show s.stack[k]'h = State.reset.stack[k]'h from by simp [h3]]; revert k; decide,
    fun r h => (by rw [h4] at h; cases h), fun h => (by rw [h5] at h; cases h)⟩

/-- Also for DriverMovesKeepInvariant (the step move). -/
theorem test_hyp_StepKeepsInvariant : ({ atReset 0x2300 with loadOpen := false } : State).Inv ∧
    step { atReset 0x2300 with loadOpen := false } = .next (after { atReset 0x2300 with loadOpen := false }) :=
  ⟨inv_of_plain (by decide) (by decide) rfl rfl rfl, step_of_after ⟨_, rfl⟩⟩

theorem test_hyp_ReturnPopsTheStack : State.reset.sp = 0 ∧ 0 < ({ State.reset with sp := 1 } : State).sp.val ∧
    0 < ({ State.reset with sp := 16 } : State).sp.val := by decide

theorem test_hyp_CallPushesTheReturnAddress : ({ State.reset with sp := 16 } : State).sp = 16 ∧
    ({ State.reset with sp := 15 } : State).sp.val < 16 := by decide

theorem test_hyp_CallThenReturnRoundTrips : ∃ t, ({ State.reset with sp := 15 } : State).sp.val < 16 ∧
    exec (.call 0x300) { State.reset with sp := 15 } = .next t ∧ t.sp = 16 :=
  ⟨_, by decide, rfl, by decide⟩

theorem test_hyp_AddToIndexIsExact :
    ((State.reset.setIndex 0xFF01).setReg 1 0xFE).i.toNat + (((State.reset.setIndex 0xFF01).setReg 1 0xFE).reg 1).toNat = 65535 ∧
    ((State.reset.setIndex 0xFF01).setReg 1 0xFF).i.toNat + (((State.reset.setIndex 0xFF01).setReg 1 0xFF).reg 1).toNat = 65536 := by
  decide

/-- The range clauses of StoreBcdWritesDigits, RegisterDumpStoresTheRange and RegisterLoadReadsTheRange. -/
theorem test_hyp_ranges : State.reset.memWf = true ∧ (State.reset.setIndex 4093).i.toNat + 2 = 4095 ∧
    4095 < (State.reset.setIndex 4094).i.toNat + 2 ∧ (State.reset.setIndex 4080).i.toNat + (15 : Reg).toNat = 4095 ∧
    4095 < (State.reset.setIndex 4081).i.toNat + (15 : Reg).toNat := by decide

theorem test_hyp_DumpThenLoadRoundTrips : ∃ t, (State.reset.setIndex 4080).memWf = true ∧
    (State.reset.setIndex 4080).i.toNat + (15 : Reg).toNat ≤ 4095 ∧
    exec (.regDump 15) (State.reset.setIndex 4080) = .next t ∧ t.i = 4080 :=
  ⟨_, by decide, by decide, rfl, by decide⟩

/-- A register-dump that makes the next instruction a clear-screen. -/
def selfModify : State := { (State.reset.setReg 1 0xE0).setIndex 0x202 with mem := [(0x200, 0xF1), (0x201, 0x55)], loadOpen := false }

theorem test_hyp_StoreBecomesNextInstruction : selfModify.Inv ∧ selfModify.Runs (.regDump 1) ∧ 1 ≤ (1 : Reg).toNat ∧
    selfModify.i = selfModify.pc + 2 ∧ selfModify.i.toNat + (1 : Reg).toNat ≤ 4095 ∧
    step selfModify = .next (after selfModify) ∧
    decodeWord (wordOfBytes (selfModify.reg 0) (selfModify.reg 1)) = .ok .clearScreen :=
  ⟨inv_of_plain (by decide) (by decide) rfl rfl rfl, by rw [runs_iff]; decide, by decide, by decide, by decide,
    step_of_after ⟨_, rfl⟩, by decide⟩

theorem test_hyp_DrawSpriteXorsTheCells : (State.reset.setIndex 4081).i.toNat + (15 : Nibble).toNat - 1 = 4095 ∧
    ((15 : Nibble) ≠ 0 ∧ 4095 < (State.reset.setIndex 4082).i.toNat + (15 : Nibble).toNat - 1) := by decide

/-- A cell under glyph 0 and a cell beside it; with the framebuffer of `lit` the first collides. -/
theorem test_hyp_DrawSpriteXorsTheCells_cells : (State.reset.setIndex 0).SpriteCovers 0 0 5 0 0 ∧
    ¬ (State.reset.setIndex 0).SpriteCovers 0 0 5 0 63 ∧ lit.fb.cell 0 0 = true := by
  refine ⟨⟨0, 0, by decide, by decide, by decide, by decide, by decide⟩, ?_, by decide⟩
  rintro ⟨r, c, _, hc, _, hx, _⟩
  simp at hx; omega

theorem test_hyp_DrawTwiceRestores : ∃ t, (State.reset.setIndex 0).i.toNat + (5 : Nibble).toNat - 1 ≤ 4095 ∧
    exec (.drawSprite 0 1 5) (State.reset.setIndex 0) = .next t ∧ t.i = 0 ∧ t.reg 0 = 0 :=
  ⟨_, by decide, rfl, by decide, by decide⟩

theorem test_hyp_KeySkipsReadTheKeypad : ((State.reset.setReg 0 15).reg 0).toNat = 15 ∧
    15 < ((State.reset.setReg 0 16).reg 0).toNat := by decide

theorem test_hyp_WaitForKeySamplesTheLowest : (withInputs 0x8000 0).input.keys.getLsbD 15 = true ∧
    (∀ j < 15, (withInputs 0x8000 0).input.keys.getLsbD j = false) ∧ (withInputs 0 0).input.keys = 0 := by decide

/-- The small hypotheses of the skips, of the flag-defining families, of random-masked and of the timers. -/
theorem test_hyp_small : (State.reset.setReg 3 0x42).reg 3 = 0x42 ∧ State.reset.reg 3 ≠ 0x42 ∧
    (withV12 7 7).reg 1 = (withV12 7 7).reg 2 ∧ (withV12 7 8).reg 1 ≠ (withV12 7 8).reg 2 ∧ (14 : Reg) ≠ 15 ∧
    (withInputs 0x00A0 0xAB).inputs = ⟨0x00A0, 0xAB⟩ :: [] ∧ State.reset.fault = none ∧ (79 : Nat) < 80 := by decide

end Sys2Proof.Tests
end

section
/-! Each operand group of an instruction word (30_encoding.md R92) as a quotient and remainder of the word's value. -/

namespace Sys2Proof.Proofs

open Sys2Proof

theorem toNat_nibble0 (w : Word) : (nibble0 w).toNat = w.toNat / 4096 % 16 := by
  simp [nibble0, Nat.shiftRight_eq_div_pow]

theorem toNat_fieldX (w : Word) : (fieldX w).toNat = w.toNat / 256 % 16 := by
  simp [fieldX, Nat.shiftRight_eq_div_pow]

theorem toNat_fieldY (w : Word) : (fieldY w).toNat = w.toNat / 16 % 16 := by
  simp [fieldY, Nat.shiftRight_eq_div_pow]

theorem toNat_fieldN (w : Word) : (fieldN w).toNat = w.toNat % 16 := by simp [fieldN]

theorem toNat_fieldKK (w : Word) : (fieldKK w).toNat = w.toNat % 256 := by simp [fieldKK]

theorem toNat_fieldNNN (w : Word) : (fieldNNN w).toNat = w.toNat % 4096 := by simp [fieldNNN]

/-- Settles O6: each group is a digit or a remainder of the word in base 16, and a word is below `16 ^ 4`. -/
theorem nibblesRecombine : Obligations.NibblesRecombine := by
  intro w
  have hw : w.toNat < 65536 := w.isLt
  rw [toNat_nibble0, toNat_fieldX, toNat_fieldY, toNat_fieldN, toNat_fieldKK, toNat_fieldNNN]
  refine ⟨?_, ?_, ?_⟩ <;> omega

end Sys2Proof.Proofs
end

section
/-! The step around its handler (40_step_fetch_decode.md R120): which instructions touch the timers and `changed`, what a
safe step's handler left before the tick, and R126 and R127 from both. -/

namespace Sys2Proof.Proofs

open Sys2Proof Sys2Proof.Machine

/-! ### The pieces of state an instruction touches -/

theorem dt_mem_touches_iff (i : Instr) : Part.dt ∈ i.touches ↔ ∃ x, i = .setDelayTimer x := by
  cases i <;> simp [Instr.touches]

theorem st_mem_touches_iff (i : Instr) : Part.st ∈ i.touches ↔ ∃ x, i = .setSoundTimer x := by
  cases i <;> simp [Instr.touches]

theorem changed_mem_touches_iff (i : Instr) : Part.changed ∈ i.touches ↔ i.writesDisplay := by
  cases i <;> simp [Instr.touches, Instr.writesDisplay]

/-- An instruction keeps every piece of state but the latch that it does not touch, whether it faults or not. -/
theorem exec_same_of_not_touched {i : Instr} {s u : State} {p : Part} (h : exec i s = .next u) (hp : p ∉ i.touches)
    (hf : p ≠ .fault) : p.same s u := by
  obtain ⟨f, rfl⟩ | hkeep := exec_frame h
  · exact State.takeFault_keeps s f p (by simpa using hf)
  · exact hkeep p hp

theorem runs_unique {s : State} {i j : Instr} (hi : s.Runs i) (hj : s.Runs j) : i = j := by
  obtain ⟨-, -, hi⟩ := hi
  obtain ⟨-, -, hj⟩ := hj
  exact Except.ok.inj (hi.symm.trans hj)

theorem not_runs_of_unknown {s : State} {e : DecodeError} (h : decodeWord s.wordAtPc = .error e) (i : Instr) :
    ¬ s.Runs i := fun ⟨_, _, hi⟩ => by cases h.symm.trans hi

/-! ### The handler of a step made without a fault -/

/-- `u` is what actions 4 to 6 of the step from `s` leave: the decoded instruction's state, or the fallback's. -/
def Handled (s u : State) : Prop :=
  (∃ i, s.Runs i ∧ exec i s.beginStep = .next u) ∨ ((∀ i, ¬ s.Runs i) ∧ u = s.beginStep.advance)

/-- A safe step is its handler, without fault, and then the end of the step. -/
theorem safeStep_handled {s t : State} (h : SafeStep s t) : ∃ u, Handled s u ∧ u.fault = none ∧ t = u.endStep := by
  obtain ⟨hs, hst, ht⟩ := h
  obtain ⟨hl, -⟩ | ⟨-, -, hstep⟩ | ⟨i, u, hr, hx, hstep⟩ | ⟨e, -, -, hd, hstep⟩ := step_cases s
  · exact absurd hs hl
  · cases hst.symm.trans hstep
    simp [State.takeFetchFault] at ht
  · cases hst.symm.trans hstep
    exact ⟨u, .inl ⟨i, hr, hx⟩, by simpa using ht, rfl⟩
  · cases hst.symm.trans hstep
    exact ⟨_, .inr ⟨not_runs_of_unknown hd, rfl⟩, by simpa using ht, rfl⟩

theorem exec_of_handled {s u : State} {i : Instr} (h : Handled s u) (hr : s.Runs i) : exec i s.beginStep = .next u := by
  obtain ⟨j, hj, hx⟩ | ⟨hno, -⟩ := h
  · rwa [runs_unique hr hj]
  · exact absurd hr (hno i)

/-- The handler keeps every piece of state that the running instruction, if there is one, does not touch; the fallback
moves `pc` only. -/
theorem handled_same {s u : State} {p : Part} (h : Handled s u) (hno : ∀ i, s.Runs i → p ∉ i.touches)
    (hp : p ∉ [.pc, .fault]) : p.same s.beginStep u := by
  obtain ⟨i, hr, hx⟩ | ⟨-, rfl⟩ := h
  · exact exec_same_of_not_touched hx (hno i hr) (by simp_all)
  · cases p <;> simp_all [Part.same]

theorem handled_keeps_dt {s u : State} (h : Handled s u) (hno : ¬ ∃ x, s.Runs (.setDelayTimer x)) : u.dt = s.dt := by
  refine handled_same (p := .dt) h (fun i hr hm => ?_) (by decide)
  obtain ⟨x, rfl⟩ := (dt_mem_touches_iff i).mp hm
  exact hno ⟨x, hr⟩

theorem handled_keeps_st {s u : State} (h : Handled s u) (hno : ¬ ∃ x, s.Runs (.setSoundTimer x)) : u.st = s.st := by
  refine handled_same (p := .st) h (fun i hr hm => ?_) (by decide)
  obtain ⟨x, rfl⟩ := (st_mem_touches_iff i).mp hm
  exact hno ⟨x, hr⟩

/-! ### What the three timer instructions leave -/

theorem dt_of_exec_setDelayTimer {s u : State} {x : Reg} (h : exec (.setDelayTimer x) s = .next u) : u.dt = s.reg x := by
  cases h; rfl

theorem st_of_exec_setSoundTimer {s u : State} {x : Reg} (h : exec (.setSoundTimer x) s = .next u) : u.st = s.reg x := by
  cases h; rfl

theorem reg_of_exec_readDelayTimer {s u : State} {x : Reg} (h : exec (.readDelayTimer x) s = .next u) :
    u.reg x = s.dt := by
  cases h; simp

/-- Settles O15: a safe step ticks what its handler left, and only the two set-timer instructions touch a timer. -/
theorem timersTickEveryStep : Obligations.TimersTickEveryStep := by
  intro s t hsafe
  obtain ⟨u, hu, hf, rfl⟩ := safeStep_handled hsafe
  have hdt : u.endStep.dt = tickTimer u.dt := by simp [hf]
  have hst : u.endStep.st = tickTimer u.st := by simp [hf]
  rw [hdt, hst]
  refine ⟨fun hno => ?_, fun hno => ?_, fun x hr => ?_, fun x hr => ?_, fun x hr => ?_⟩
  · rw [handled_keeps_dt hu hno, tickTimer]
  · rw [handled_keeps_st hu hno, tickTimer]
  · rw [dt_of_exec_setDelayTimer (exec_of_handled hu hr), tickTimer, State.beginStep_reg]
  · rw [st_of_exec_setSoundTimer (exec_of_handled hu hr), tickTimer, State.beginStep_reg]
  · rw [State.endStep_reg, reg_of_exec_readDelayTimer (exec_of_handled hu hr), State.beginStep_dt]

/-! ### `changed` -/

/-- From `changed` = 0 and no fault latched, an instruction raises `changed` exactly when it writes the display without
faulting. -/
theorem exec_changed_iff {i : Instr} {s u : State} (h : exec i s = .next u) (hc : s.changed = false)
    (hf : s.fault = none) : u.changed = true ↔ u.fault = none ∧ i.writesDisplay := by
  by_cases hw : i.writesDisplay
  · obtain rfl | ⟨x, y, n, rfl⟩ := hw
    · cases h
      simp [hf, Instr.writesDisplay]
    · rw [exec_drawSprite_eq] at h
      cases h
      split
      · simp [hf, Instr.writesDisplay]
      · simp [State.takeDataFault, hc]
  · have hsame : u.changed = s.changed :=
      exec_same_of_not_touched (p := .changed) h (mt (changed_mem_touches_iff i).mp hw) (by decide)
    simp [hsame, hc, hw]

/-- Settles O16: the step clears `changed` first, so only its instruction can leave it at 1. -/
theorem changedMarksDisplayWrites : Obligations.ChangedMarksDisplayWrites := by
  intro s t hst
  obtain ⟨hl, hstep⟩ | ⟨-, -, hstep⟩ | ⟨i, u, hr, hx, hstep⟩ | ⟨e, -, -, hd, hstep⟩ := step_cases s <;>
    cases hst.symm.trans hstep
  · simp [hl]
  · simp [State.takeFetchFault]
  · have hone : (∃ j, s.Runs j ∧ j.writesDisplay) ↔ i.writesDisplay :=
      ⟨fun ⟨j, hj, hw⟩ => runs_unique hr hj ▸ hw, fun hw => ⟨i, hr, hw⟩⟩
    rw [State.endStep_changed, State.endStep_fault, hone]
    exact exec_changed_iff hx rfl hr.1
  · simp [not_runs_of_unknown hd]

end Sys2Proof.Proofs
end

section
/-! Control transfer (41_control_flow.md R140 to R146). What each of the instructions writes is read off its equation in
Laws/Exec; what it leaves alone comes from `Instr.touches` by one lemma over every instruction. -/

namespace Sys2Proof.Proofs

open Sys2Proof Sys2Proof.Machine

/-! ### Frames -/

theorem takeFault_onlyChanges (s : State) (f : Fault) : OnlyChanges [.fault] s (s.takeFault f) :=
  ⟨State.takeFault_keeps s f, ⟨rfl, rfl, rfl, rfl, rfl⟩⟩

theorem envSame_of_exec {i : Instr} {s t : State} (h : exec i s = .next t) : EnvSame s t := by
  obtain ⟨u, hu, henv⟩ := exec_next i s
  cases h.symm.trans hu
  exact henv

/-- An instruction that leaves the latch as it was changes only the pieces of state it touches: taking a fault would have
changed nothing at all. -/
theorem exec_onlyChanges {i : Instr} {s t : State} (h : exec i s = .next t) (hf : t.fault = s.fault) :
    OnlyChanges i.touches s t := by
  refine ⟨fun p hp => ?_, envSame_of_exec h⟩
  by_cases hpf : p = .fault
  · subst hpf
    exact hf
  · exact exec_same_of_not_touched h hp hpf

/-! ### Return, jump and call -/

@[simp] theorem addr16_toNat (nnn : Addr12) : (addr16 nnn).toNat = nnn.toNat :=
  BitVec.toNat_setWidth_of_le (by decide)

/-- Settles O31: an empty stack faults, and otherwise `exec_ret_of_pos` names the state popped to. -/
theorem returnPopsTheStack : Obligations.ReturnPopsTheStack := by
  intro s
  refine ⟨fun h => ⟨exec_ret_of_zero (congrArg Fin.val h), takeFault_onlyChanges s _⟩, fun h => ?_⟩
  exact ⟨_, exec_ret_of_pos h, rfl, rfl, exec_onlyChanges (exec_ret_of_pos h) rfl⟩

/-- Settles O32: zero extension keeps the address. -/
theorem jumpSetsPc : Obligations.JumpSetsPc :=
  fun _ nnn => ⟨_, rfl, addr16_toNat nnn, exec_onlyChanges (i := .jump nnn) rfl rfl⟩

/-- Settles O33: a full stack faults, and otherwise `exec_call_of_lt` names the state called into, whose stack differs from
the old one in the entry pushed. -/
theorem callPushesTheReturnAddress : Obligations.CallPushesTheReturnAddress := by
  intro s nnn
  refine ⟨fun h => ⟨exec_call_of_full nnn (congrArg Fin.val h), takeFault_onlyChanges s _⟩, fun h => ?_⟩
  refine ⟨_, exec_call_of_lt nnn h, rfl, ?_, fun k hk hne => ?_, addr16_toNat nnn,
    exec_onlyChanges (exec_call_of_lt nnn h) rfl⟩
  · exact Vector.getElem_set_self h
  · exact Vector.getElem_set_ne h hk hne.symm

/-! ### The skips -/

/-- A skip on the condition `c`: to `pc + 4` where `c` holds, to `pc + 2` where it does not, with nothing else changed. The
two cases are stated as any `p` and `q` that decide `c`. -/
theorem exec_skip {i : Instr} {s : State} {c : Bool} {p q : Prop} (h : exec i s = .next (s.skipIf c))
    (hp : p → c = true) (hq : q → c = false) :
    ∃ t, exec i s = .next t ∧ (p → t.pc = s.pc + 4) ∧ (q → t.pc = s.pc + 2) ∧ OnlyChanges i.touches s t := by
  refine ⟨_, h, fun hc => ?_, fun hc => ?_, exec_onlyChanges h rfl⟩
  · rw [State.skipIf_pc, hp hc, if_pos rfl]
  · rw [State.skipIf_pc, hq hc, if_neg Bool.false_ne_true]

/-- Settles O35: both are skips, on `V[X] = KK` and on its negation. -/
theorem skipsCompareImmediate : Obligations.SkipsCompareImmediate := by
  intro s x kk
  constructor
  · exact exec_skip (i := .skipEqImm x kk) rfl decide_eq_true decide_eq_false
  · exact exec_skip (i := .skipNeImm x kk) rfl decide_eq_true fun e => decide_eq_false (not_not_intro e)

/-- Settles O36: both are skips, on `V[X] = V[Y]` and on its negation. -/
theorem skipsCompareRegisters : Obligations.SkipsCompareRegisters := by
  intro s x y
  constructor
  · exact exec_skip (i := .skipEqReg x y) rfl decide_eq_true decide_eq_false
  · exact exec_skip (i := .skipNeReg x y) rfl decide_eq_true fun e => decide_eq_false (not_not_intro e)

end Sys2Proof.Proofs
end

section
/-! The register instructions that write no flag (42_alu.md R160 to R165). All six have one effect: `V[X]` receives a byte
and `pc` advances. It is proved once for any such instruction; each instruction then has only its byte to account for. -/

namespace Sys2Proof.Proofs

open Sys2Proof Sys2Proof.Machine

/-- An instruction that writes `b` to `V[X]` and advances. What is wanted of the new `V[X]` is any `p` that `b` has. `V[15]`
is among the other registers unless `X` = 15, so no flag is written. -/
theorem exec_writeReg {i : Instr} {s : State} {x : Reg} {b : Byte} (p : Byte → Prop)
    (h : exec i s = .next (s.setReg x b).advance) (hb : p b) :
    ∃ t, exec i s = .next t ∧ p (t.reg x) ∧ t.pc = s.pc + 2 ∧ OtherRegsSame [x] s t ∧ OnlyChanges i.touches s t := by
  refine ⟨_, h, ?_, rfl, fun z hz => ?_, exec_onlyChanges h rfl⟩
  · rwa [State.advance_reg, State.setReg_reg, if_pos rfl]
  · rw [State.advance_reg, State.setReg_reg, if_neg (List.ne_of_not_mem_cons hz)]

/-- Settles O38: the byte written is `KK`, or the sum, which is taken modulo 256. -/
theorem immediateForms : Obligations.ImmediateForms := by
  intro s x kk
  constructor
  · exact exec_writeReg (i := .loadImm x kk) (· = kk) rfl rfl
  · exact exec_writeReg (i := .addImm x kk) (·.toNat = ((s.reg x).toNat + kk.toNat) % 256) rfl (BitVec.toNat_add ..)

/-- Settles O39: the byte written is `V[Y]`, or a bitwise operation on `V[X]` and `V[Y]`. -/
theorem moveAndLogic : Obligations.MoveAndLogic := by
  intro s x y
  refine ⟨?move, ?or, ?and, ?xor⟩
  case move => exact exec_writeReg (i := .move x y) (· = s.reg y) rfl rfl
  case or =>
    exact exec_writeReg (i := .orReg x y)
      (fun b => ∀ k < 8, b.getLsbD k = ((s.reg x).getLsbD k || (s.reg y).getLsbD k)) rfl fun _ _ => BitVec.getLsbD_or
  case and =>
    exact exec_writeReg (i := .andReg x y)
      (fun b => ∀ k < 8, b.getLsbD k = ((s.reg x).getLsbD k && (s.reg y).getLsbD k)) rfl fun _ _ => BitVec.getLsbD_and
  case xor =>
    exact exec_writeReg (i := .xorReg x y)
      (fun b => ∀ k < 8, b.getLsbD k = ((s.reg x).getLsbD k ^^ (s.reg y).getLsbD k)) rfl fun _ _ => BitVec.getLsbD_xor

end Sys2Proof.Proofs
end

section
/-! The index loads (43_index_memory.md R180, R182) and the accesses through `I` (R183 to R185). A store and a data fault are
proved once for any instruction that makes them; store-bcd and register-dump then differ in the bytes they store alone. -/

namespace Sys2Proof.Proofs

open Sys2Proof Sys2Proof.Machine

/-! ### The index loads -/

/-- `255 * 5` fits 16 bits, so the product is exact for every byte. -/
theorem byte16_mul_five_toNat (b : Byte) : (byte16 b * 5).toNat = b.toNat * 5 := by
  have hb : b.toNat < 256 := b.isLt
  have hz : (byte16 b).toNat = b.toNat := BitVec.toNat_setWidth_of_le (by decide)
  rw [BitVec.toNat_mul, hz]
  exact Nat.mod_eq_of_lt (show b.toNat * 5 < 65536 by omega)

/-- Settles O44: zero extension keeps the address, and five times a byte fits in `I`. -/
theorem indexLoads : Obligations.IndexLoads := by
  constructor
  · exact fun s nnn => ⟨_, rfl, addr16_toNat nnn, rfl, exec_onlyChanges (i := .loadIndexImm nnn) rfl rfl⟩
  · exact fun s x => ⟨_, rfl, byte16_mul_five_toNat (s.reg x), rfl, exec_onlyChanges (i := .loadFontAddr x) rfl rfl⟩

/-! ### The two outcomes of an access through `I` -/

/-- The data fault as the statements of R183 to R185 ask for it: the lowest address out of range is recorded, and nothing
but the latch changes. -/
theorem exec_dataFault {i : Instr} {s : State} (h : exec i s = .next s.takeDataFault) :
    ∃ a : BitVec 17, a.toNat = max s.i.toNat 4096 ∧ exec i s = .next (s.takeFault (.dataRange a)) ∧
      OnlyChanges [.fault] s (s.takeFault (.dataRange a)) :=
  ⟨_, lowestBadAddress_toNat s.i.isLt, h, takeFault_onlyChanges s _⟩

/-- An instruction that stores `bs` at `I` and advances, the whole range inside memory. -/
theorem exec_storeBytes {i : Instr} {s : State} {bs : List Byte} (h : exec i s = .next (s.putBytes s.i.toNat bs).advance)
    (hm : s.memWf = true) (hr : s.i.toNat + bs.length ≤ 4096) :
    ∃ t, exec i s = .next t ∧ (∀ (k : Nat) (hk : k < bs.length), t.byte (s.dataAddress k) = bs[k]) ∧
      OtherBytesSame (s.dataAddress 0) bs.length s t ∧ t.pc = s.pc + 2 ∧ OnlyChanges i.touches s t :=
  ⟨_, h, State.byte_putBytes_same hr hm, fun _ hb => State.byte_putBytes_other s hb, rfl, exec_onlyChanges h rfl⟩

/-! ### store-bcd -/

/-- Settles O46: a digit is below 256, so the byte stored has the digit's value. -/
theorem storeBcdWritesDigits : Obligations.StoreBcdWritesDigits := by
  intro s x
  have hx : (s.reg x).toNat < 256 := (s.reg x).isLt
  constructor
  · intro hm hr
    have h := exec_storeBcd_eq s x
    rw [if_pos (by omega)] at h
    obtain ⟨t, ht, hbytes, hframe⟩ := exec_storeBytes h hm (by rw [bcdDigits_length]; omega)
    refine ⟨t, ht, ?hundreds, ?tens, ?ones, hframe⟩
    case hundreds =>
      rw [hbytes 0 (by simp)]
      exact Nat.mod_eq_of_lt (by omega)
    case tens =>
      rw [hbytes 1 (by simp)]
      exact Nat.mod_eq_of_lt (by omega)
    case ones =>
      rw [hbytes 2 (by simp)]
      exact Nat.mod_eq_of_lt (by omega)
  · intro hr
    exact exec_dataFault (by rw [exec_storeBcd_eq, if_neg (by omega)])

/-! ### register-dump and register-load -/

/-- Settles O47: byte `k` of the range stored is `V[k]`. -/
theorem registerDumpStoresTheRange : Obligations.RegisterDumpStoresTheRange := by
  intro s x
  constructor
  · intro hm hr
    have h := exec_regDump_eq s x
    rw [if_pos (by omega)] at h
    obtain ⟨t, ht, hbytes, hframe⟩ := exec_storeBytes h hm (by rw [State.regs_length]; omega)
    rw [State.regs_length] at hframe
    refine ⟨t, ht, fun z hz => ?_, hframe⟩
    rw [hbytes z.toNat (by rw [State.regs_length]; omega), State.regs_getElem, BitVec.ofNat_toNat, BitVec.setWidth_eq]
  · intro hr
    exact exec_dataFault (by rw [exec_regDump_eq, if_neg (by omega)])

theorem setRegs_pc (s : State) (k : Nat) (bs : List Byte) : (s.setRegs k bs).pc = s.pc :=
  State.setRegs_same bs s k .pc (by decide)

theorem setRegs_fault (s : State) (k : Nat) (bs : List Byte) : (s.setRegs k bs).fault = s.fault :=
  State.setRegs_same bs s k .fault (by decide)

/-- Settles O48: `V[k]` receives byte `k` of the range read, and a register above `X` is outside the range written. -/
theorem registerLoadReadsTheRange : Obligations.RegisterLoadReadsTheRange := by
  intro s x
  have hx : x.toNat < 16 := x.isLt
  constructor
  · intro hr
    have h := exec_regLoad_eq s x
    rw [if_pos (by omega)] at h
    have hreg := State.setRegs_reg (s.bytes s.i.toNat (x.toNat + 1)) s 0 (by rw [State.bytes_length]; omega)
    refine ⟨_, h, fun z hz => ?_, fun z hz => ?_, ?_, exec_onlyChanges h (setRegs_fault ..)⟩
    · rw [State.advance_reg, hreg, dif_pos (by rw [State.bytes_length]; omega), State.bytes_getElem]
      rfl
    · rw [State.advance_reg, hreg, dif_neg (by rw [State.bytes_length]; omega)]
    · rw [State.advance_pc, setRegs_pc]
  · intro hr
    exact exec_dataFault (by rw [exec_regLoad_eq, if_neg (by omega)])

end Sys2Proof.Proofs
end

section
/-! clear-screen (44_display.md R190). -/

namespace Sys2Proof.Proofs

open Sys2Proof Sys2Proof.Machine

/-- Settles O51: the framebuffer becomes the blank one, and `changed` is raised whatever the framebuffer held. -/
theorem clearScreenZeroesEveryCell : Obligations.ClearScreenZeroesEveryCell := fun _ =>
  ⟨_, rfl, Framebuffer.blank_cell, rfl, rfl, exec_onlyChanges (i := .clearScreen) rfl rfl⟩

end Sys2Proof.Proofs
end

section
/-! Decoding against the opcode map (30_encoding.md R91 to R99). Disjoint rows make the first row found the only one a word
selects; the encoder and the rows are then inverse to each other, form by form. -/

namespace Sys2Proof.Proofs

open Sys2Proof

/-! ### Rows and the words that select them -/

theorem selects_iff (r : OpRow) (w : Word) : r.selects w = true ↔ w &&& r.mask = r.pattern := by
  simp [OpRow.selects]

/-- A word that selects two rows makes their patterns agree on the bits that both masks keep. -/
theorem patterns_agree_of_selects_both {w m m' p p' : Word} (h : w &&& m = p) (h' : w &&& m' = p') :
    p &&& m' = p' &&& m := by
  rw [← h, ← h', BitVec.and_assoc, BitVec.and_assoc, BitVec.and_comm m]

/-- The patterns of any two rows differ on a bit that both masks keep: the 561 pairs, compared. -/
theorem opcodeMap_patterns_differ :
    opcodeMap.Pairwise fun r r' => r.pattern &&& r'.mask ≠ r'.pattern &&& r.mask := by decide

/-- Settles O3: a word selecting two rows would make their patterns agree where both masks look. -/
theorem opcodeRowsAreDisjoint : Obligations.OpcodeRowsAreDisjoint :=
  ⟨rfl, opcodeMap_patterns_differ.imp fun hne _ ⟨h, h'⟩ => hne (patterns_agree_of_selects_both h h')⟩

theorem row_unique {w : Word} {r r' : OpRow} (hr : r ∈ opcodeMap) (hr' : r' ∈ opcodeMap)
    (h : w &&& r.mask = r.pattern) (h' : w &&& r'.mask = r'.pattern) : r = r' := by
  by_contra hne
  have hsymm : Std.Symm fun r r' : OpRow => r.pattern &&& r'.mask ≠ r'.pattern &&& r.mask := ⟨fun _ _ hd => hd.symm⟩
  exact opcodeMap_patterns_differ.forall hr hr' hne (patterns_agree_of_selects_both h h')

/-! ### Dispatch -/

theorem decodeWord_ok_iff {w : Word} {i : Instr} :
    decodeWord w = .ok i ↔ ∃ r ∈ opcodeMap, w &&& r.mask = r.pattern ∧ r.build w = i := by
  unfold decodeWord
  cases hfind : opcodeMap.find? fun r => r.selects w with
  | none =>
    refine ⟨fun h => (by cases h), fun ⟨r, hr, hsel, _⟩ => ?_⟩
    exact absurd ((selects_iff r w).mpr hsel) (List.find?_eq_none.mp hfind r hr)
  | some r =>
    have hr := List.mem_of_find?_eq_some hfind
    have hsel := (selects_iff r w).mp (List.find?_some (p := fun r : OpRow => r.selects w) hfind)
    refine ⟨fun h => ⟨r, hr, hsel, Except.ok.inj h⟩, fun ⟨r', hr', hsel', hb⟩ => ?_⟩
    obtain rfl := row_unique hr hr' hsel hsel'
    exact congrArg Except.ok hb

theorem decodeWord_unknown_iff {w : Word} :
    decodeWord w = .error (.unknown w) ↔ ∀ r ∈ opcodeMap, w &&& r.mask ≠ r.pattern := by
  constructor
  · intro h r hr hsel
    cases h.symm.trans (decodeWord_ok_iff.mpr ⟨r, hr, hsel, rfl⟩)
  · intro h
    have hnone : opcodeMap.find? (fun r => r.selects w) = none :=
      List.find?_eq_none.mpr fun r hr => mt (selects_iff r w).mp (h r hr)
    rw [decodeWord, hnone]

/-- Settles O4: a selected row is the one found, and with none selected the decoder says so. -/
theorem decodeFollowsTheMap : Obligations.DecodeFollowsTheMap :=
  ⟨fun _ r hr hsel => decodeWord_ok_iff.mpr ⟨r, hr, hsel, rfl⟩, fun _ => decodeWord_unknown_iff.mpr⟩

/-! ### Decode after encode -/

/-- `Laws.EncodingMatches` for any instruction: the row of each constructor. -/
theorem encode_selects_row (i : Instr) : Laws.EncodingMatches.Statement i := by
  cases i with
  | clearScreen => exact Laws.EncodingMatches.clearScreen
  | ret => exact Laws.EncodingMatches.ret
  | jump nnn => exact Laws.EncodingMatches.jump nnn
  | call nnn => exact Laws.EncodingMatches.call nnn
  | skipEqImm x kk => exact Laws.EncodingMatches.skipEqImm x kk
  | skipNeImm x kk => exact Laws.EncodingMatches.skipNeImm x kk
  | skipEqReg x y => exact Laws.EncodingMatches.skipEqReg x y
  | loadImm x kk => exact Laws.EncodingMatches.loadImm x kk
  | addImm x kk => exact Laws.EncodingMatches.addImm x kk
  | move x y => exact Laws.EncodingMatches.move x y
  | orReg x y => exact Laws.EncodingMatches.orReg x y
  | andReg x y => exact Laws.EncodingMatches.andReg x y
  | xorReg x y => exact Laws.EncodingMatches.xorReg x y
  | addReg x y => exact Laws.EncodingMatches.addReg x y
  | subReg x y => exact Laws.EncodingMatches.subReg x y
  | shiftRight x y => exact Laws.EncodingMatches.shiftRight x y
  | subReverse x y => exact Laws.EncodingMatches.subReverse x y
  | shiftLeft x y => exact Laws.EncodingMatches.shiftLeft x y
  | skipNeReg x y => exact Laws.EncodingMatches.skipNeReg x y
  | loadIndexImm nnn => exact Laws.EncodingMatches.loadIndexImm nnn
  | jumpOffset nnn => exact Laws.EncodingMatches.jumpOffset nnn
  | randomMasked x kk => exact Laws.EncodingMatches.randomMasked x kk
  | drawSprite x y n => exact Laws.EncodingMatches.drawSprite x y n
  | skipKeyPressed x => exact Laws.EncodingMatches.skipKeyPressed x
  | skipKeyNotPressed x => exact Laws.EncodingMatches.skipKeyNotPressed x
  | readDelayTimer x => exact Laws.EncodingMatches.readDelayTimer x
  | waitForKey x => exact Laws.EncodingMatches.waitForKey x
  | setDelayTimer x => exact Laws.EncodingMatches.setDelayTimer x
  | setSoundTimer x => exact Laws.EncodingMatches.setSoundTimer x
  | addToIndex x => exact Laws.EncodingMatches.addToIndex x
  | loadFontAddr x => exact Laws.EncodingMatches.loadFontAddr x
  | storeBcd x => exact Laws.EncodingMatches.storeBcd x
  | regDump x => exact Laws.EncodingMatches.regDump x
  | regLoad x => exact Laws.EncodingMatches.regLoad x

theorem decodeWord_encode (i : Instr) : decodeWord (encode i) = .ok i := decodeWord_ok_iff.mpr (encode_selects_row i)

/-- Settles O1: the two bytes are the word's, and its row is the only one it selects. Well-formedness is not needed: the
types of the operands give it. -/
theorem decodeOfEncodedBytes : Obligations.DecodeOfEncodedBytes := by
  intro i rest _
  rw [encodeBytes, List.cons_append, List.cons_append, List.nil_append, decode, wordOfBytes_hiByte_loByte,
    decodeWord_encode]

/-! ### The three masks that keep operand bits -/

theorem word_eq_of_x_y_n {w v : Word} (h0 : nibble0 w = nibble0 v) (hx : fieldX w = fieldX v) (hy : fieldY w = fieldY v)
    (hn : fieldN w = fieldN v) : w = v := by
  obtain ⟨hw, -⟩ := nibblesRecombine w
  obtain ⟨hv, -⟩ := nibblesRecombine v
  rw [h0, hx, hy, hn] at hw
  exact BitVec.eq_of_toNat_eq (hw.symm.trans hv)

/-- A mask tests a word nibble by nibble. -/
theorem and_eq_iff_nibbles {w m p : Word} : w &&& m = p ↔
    nibble0 w &&& nibble0 m = nibble0 p ∧ fieldX w &&& fieldX m = fieldX p ∧ fieldY w &&& fieldY m = fieldY p ∧
    fieldN w &&& fieldN m = fieldN p := by
  have h0 : nibble0 (w &&& m) = nibble0 w &&& nibble0 m := BitVec.extractLsb'_and
  have hx : fieldX (w &&& m) = fieldX w &&& fieldX m := BitVec.extractLsb'_and
  have hy : fieldY (w &&& m) = fieldY w &&& fieldY m := BitVec.extractLsb'_and
  have hn : fieldN (w &&& m) = fieldN w &&& fieldN m := BitVec.extractLsb'_and
  rw [← h0, ← hx, ← hy, ← hn]
  exact ⟨fun h => h ▸ ⟨rfl, rfl, rfl, rfl⟩, fun ⟨h0, hx, hy, hn⟩ => word_eq_of_x_y_n h0 hx hy hn⟩

theorem fieldKK_eq_iff {w v : Word} : fieldKK w = fieldKK v ↔ fieldY w = fieldY v ∧ fieldN w = fieldN v := by
  simp only [← BitVec.toNat_inj, toNat_fieldKK, toNat_fieldY, toNat_fieldN]
  omega

/-- A nibble of a mask keeps the word's nibble, or drops it. -/
theorem nibble_and_F (a : BitVec 4) : a &&& 0xF = a := BitVec.and_allOnes

theorem nibble_and_0 (a : BitVec 4) : a &&& 0x0 = 0 := BitVec.and_zero

theorem and_F000_eq_iff {w op : Word} (h : op &&& 0x0FFF = 0) : w &&& 0xF000 = op ↔ nibble0 w = nibble0 op := by
  obtain ⟨-, hx, hy, hn⟩ := and_eq_iff_nibbles.mp h
  have hx : fieldX op = 0 := (nibble_and_F _).symm.trans hx
  have hy : fieldY op = 0 := (nibble_and_F _).symm.trans hy
  have hn : fieldN op = 0 := (nibble_and_F _).symm.trans hn
  rw [and_eq_iff_nibbles, hx, hy, hn]
  constructor
  · rintro ⟨h0, -⟩
    exact (nibble_and_F _).symm.trans h0
  · intro h0
    exact ⟨(nibble_and_F _).trans h0, nibble_and_0 _, nibble_and_0 _, nibble_and_0 _⟩

theorem and_F00F_eq_iff {w op : Word} (h : op &&& 0x0FF0 = 0) :
    w &&& 0xF00F = op ↔ nibble0 w = nibble0 op ∧ fieldN w = fieldN op := by
  obtain ⟨-, hx, hy, -⟩ := and_eq_iff_nibbles.mp h
  have hx : fieldX op = 0 := (nibble_and_F _).symm.trans hx
  have hy : fieldY op = 0 := (nibble_and_F _).symm.trans hy
  rw [and_eq_iff_nibbles, hx, hy]
  constructor
  · rintro ⟨h0, -, -, hn⟩
    exact ⟨(nibble_and_F _).symm.trans h0, (nibble_and_F _).symm.trans hn⟩
  · rintro ⟨h0, hn⟩
    exact ⟨(nibble_and_F _).trans h0, nibble_and_0 _, nibble_and_0 _, (nibble_and_F _).trans hn⟩

theorem and_F0FF_eq_iff {w op : Word} (h : op &&& 0x0F00 = 0) :
    w &&& 0xF0FF = op ↔ nibble0 w = nibble0 op ∧ fieldKK w = fieldKK op := by
  obtain ⟨-, hx, -⟩ := and_eq_iff_nibbles.mp h
  have hx : fieldX op = 0 := (nibble_and_F _).symm.trans hx
  rw [and_eq_iff_nibbles, fieldKK_eq_iff, hx]
  constructor
  · rintro ⟨h0, -, hy, hn⟩
    exact ⟨(nibble_and_F _).symm.trans h0, (nibble_and_F _).symm.trans hy, (nibble_and_F _).symm.trans hn⟩
  · rintro ⟨h0, hy, hn⟩
    exact ⟨(nibble_and_F _).trans h0, nibble_and_0 _, (nibble_and_F _).trans hy, (nibble_and_F _).trans hn⟩

/-! ### Encode after decode -/

theorem word_eq_of_nnn {w v : Word} (h0 : nibble0 w = nibble0 v) (hnnn : fieldNNN w = fieldNNN v) : w = v := by
  have h0 := congrArg BitVec.toNat h0
  have hnnn := congrArg BitVec.toNat hnnn
  rw [toNat_nibble0, toNat_nibble0] at h0
  rw [toNat_fieldNNN, toNat_fieldNNN] at hnnn
  exact BitVec.eq_of_toNat_eq (by omega)

theorem word_eq_of_x_kk {w v : Word} (h0 : nibble0 w = nibble0 v) (hx : fieldX w = fieldX v) (hkk : fieldKK w = fieldKK v) :
    w = v := by
  obtain ⟨hy, hn⟩ := fieldKK_eq_iff.mp hkk
  exact word_eq_of_x_y_n h0 hx hy hn

/-- What a mask leaves of a word has no bit where the mask has none. -/
theorem and_rest_eq_zero {w op mask rest : Word} (h : w &&& mask = op) (hr : mask &&& rest = 0) : op &&& rest = 0 := by
  rw [← h, BitVec.and_assoc, hr]
  exact BitVec.and_zero

theorem formA_fieldNNN {w op : Word} (h : w &&& 0xF000 = op) : formA op (fieldNNN w) = w := by
  have hop : op &&& 0x0FFF = 0 := and_rest_eq_zero h (by decide)
  have h0 := (and_F000_eq_iff hop).mp h
  have h0' := (and_F000_eq_iff hop).mp (formA_mask op (fieldNNN w) hop)
  exact word_eq_of_nnn (h0'.trans h0.symm) (fieldNNN_formA op _ hop)

theorem formI_fields {w op : Word} (h : w &&& 0xF000 = op) : formI op (fieldX w) (fieldKK w) = w := by
  have hop : op &&& 0x0FFF = 0 := and_rest_eq_zero h (by decide)
  have h0 := (and_F000_eq_iff hop).mp h
  have h0' := (and_F000_eq_iff hop).mp (formI_mask op (fieldX w) (fieldKK w) hop)
  exact word_eq_of_x_kk (h0'.trans h0.symm) (fieldX_formI op _ _ hop) (fieldKK_formI op _ _ hop)

theorem formR_fields {w op : Word} (h : w &&& 0xF00F = op) : formR op (fieldX w) (fieldY w) = w := by
  have hop : op &&& 0x0FF0 = 0 := and_rest_eq_zero h (by decide)
  obtain ⟨h0, hn⟩ := (and_F00F_eq_iff hop).mp h
  obtain ⟨h0', hn'⟩ := (and_F00F_eq_iff hop).mp (formR_mask op (fieldX w) (fieldY w) hop)
  exact word_eq_of_x_y_n (h0'.trans h0.symm) (fieldX_formR op _ _ hop) (fieldY_formR op _ _ hop) (hn'.trans hn.symm)

theorem formD_fields {w op : Word} (h : w &&& 0xF000 = op) : formD op (fieldX w) (fieldY w) (fieldN w) = w := by
  have hop : op &&& 0x0FFF = 0 := and_rest_eq_zero h (by decide)
  have h0 := (and_F000_eq_iff hop).mp h
  have h0' := (and_F000_eq_iff hop).mp (formD_mask op (fieldX w) (fieldY w) (fieldN w) hop)
  exact word_eq_of_x_y_n (h0'.trans h0.symm) (fieldX_formD op _ _ _ hop) (fieldY_formD op _ _ _ hop)
    (fieldN_formD op _ _ _ hop)

theorem formU_fieldX {w op : Word} (h : w &&& 0xF0FF = op) : formU op (fieldX w) = w := by
  have hop : op &&& 0x0F00 = 0 := and_rest_eq_zero h (by decide)
  obtain ⟨h0, hkk⟩ := (and_F0FF_eq_iff hop).mp h
  obtain ⟨h0', hkk'⟩ := (and_F0FF_eq_iff hop).mp (formU_mask op (fieldX w) hop)
  exact word_eq_of_x_kk (h0'.trans h0.symm) (fieldX_formU op _ hop) (hkk'.trans hkk.symm)

/-- The row's instruction, built from a word that selects it, has that word. -/
def OpRowInverts (r : OpRow) : Prop := ∀ w : Word, w &&& r.mask = r.pattern → encode (r.build w) = w

theorem rowsLow_invert : ∀ r ∈ rowsLow, OpRowInverts r := by
  simp only [rowsLow, List.forall_mem_cons, List.not_mem_nil, false_imp_iff, implies_true, and_true]
  refine ⟨?clear, ?ret, ?jump, ?call, ?eqImm, ?neImm, ?eqReg, ?load, ?add⟩
  case clear | ret => exact fun w h => (BitVec.and_allOnes (x := w) ▸ h).symm
  case jump | call => exact fun w h => formA_fieldNNN h
  case eqImm | neImm | load | add => exact fun w h => formI_fields h
  case eqReg => exact fun w h => formR_fields h

theorem rowsRegister_invert : ∀ r ∈ rowsRegister, OpRowInverts r := by
  intro r hr
  fin_cases hr <;> exact fun _ => formR_fields

theorem rowsHigh_invert : ∀ r ∈ rowsHigh, OpRowInverts r := by
  simp only [rowsHigh, List.forall_mem_cons, List.not_mem_nil, false_imp_iff, implies_true, and_true]
  exact ⟨fun _ => formA_fieldNNN, fun _ => formA_fieldNNN, fun _ => formI_fields, fun _ => formD_fields,
    fun _ => formU_fieldX, fun _ => formU_fieldX⟩

theorem rowsUnary_invert : ∀ r ∈ rowsUnary, OpRowInverts r := by
  intro r hr
  fin_cases hr <;> exact fun _ => formU_fieldX

theorem opcodeMap_inverts {r : OpRow} (hr : r ∈ opcodeMap) : OpRowInverts r := by
  simp only [opcodeMap, List.mem_append] at hr
  obtain ((hr | hr) | hr) | hr := hr
  · exact rowsLow_invert r hr
  · exact rowsRegister_invert r hr
  · exact rowsHigh_invert r hr
  · exact rowsUnary_invert r hr

/-- Every term of `Instr` is well-formed: the types of its operands carry the widths. -/
theorem instr_wf (i : Instr) : i.wf = true := by
  simp only [Instr.wf, Fields.wf, Bool.and_eq_true, decide_eq_true_eq]
  cases i <;> simp only [Instr.fields] <;> omega

/-- Settles O2: the word selects the row that built the instruction, and that row inverts. -/
theorem encodeOfDecodedWord : Obligations.EncodeOfDecodedWord := by
  intro w i h
  obtain ⟨r, hr, hsel, rfl⟩ := decodeWord_ok_iff.mp h
  exact ⟨opcodeMap_inverts hr w hsel, instr_wf _⟩

/-- Settles O7: each word is the encoder's word of its instruction. -/
theorem sampleWordsDecode : Obligations.SampleWordsDecode :=
  ⟨decodeWord_encode .ret, decodeWord_encode (.call 0x300), decodeWord_encode (.addImm 1 0x20),
    decodeWord_encode (.subReg 1 2), decodeWord_encode (.drawSprite 1 2 5), decodeWord_encode (.skipKeyNotPressed 0),
    decodeWord_encode (.storeBcd 2)⟩

/-! ### The words no row selects -/

theorem nibble_cases (a : BitVec 4) :
    a = 0 ∨ a = 1 ∨ a = 2 ∨ a = 3 ∨ a = 4 ∨ a = 5 ∨ a = 6 ∨ a = 7 ∨
    a = 8 ∨ a = 9 ∨ a = 10 ∨ a = 11 ∨ a = 12 ∨ a = 13 ∨ a = 14 ∨ a = 15 := by
  revert a
  decide

/-- Settles O5, one leading nibble at a time. A row tests the leading nibble alone, or with the last nibble or the low byte;
the two rows of format `Z` test the whole word, whose leading nibble is 0. -/
theorem unknownWordsByLeadingNibble : Obligations.UnknownWordsByLeadingNibble := by
  intro w
  have hz : w = 0x00E0 ∨ w = 0x00EE → nibble0 w = 0 := by rintro (rfl | rfl) <;> rfl
  have hw : w &&& 0xFFFF = w := BitVec.and_allOnes
  have h8 : ∀ n : Nibble, n ∈ [(0x8 : Nibble), 0x9, 0xA, 0xB, 0xC, 0xD, 0xF] ↔
      n ∉ [(0x0 : Nibble), 0x1, 0x2, 0x3, 0x4, 0x5, 0x6, 0x7, 0xE] := by decide
  rw [decodeWord_unknown_iff, h8]
  simp only [opcodeMap, rowsLow, rowsRegister, rowsHigh, rowsUnary, List.cons_append, List.nil_append,
    List.forall_mem_cons, List.not_mem_nil, false_imp_iff, implies_true, and_true, ne_eq, hw]
  simp (disch := decide) only [and_F000_eq_iff, and_F00F_eq_iff, and_F0FF_eq_iff]
  obtain h | h | h | h | h | h | h | h | h | h | h | h | h | h | h | h := nibble_cases (nibble0 w) <;>
    rw [h] at hz ⊢ <;> simp_all [nibble0, fieldN, fieldKK]

end Sys2Proof.Proofs
end

section
/-! The step around the instruction it runs (40_step_fetch_decode.md R120): every step is a handler between `beginStep` and
`endStep`, and the handler keeps the model's own fields. -/

namespace Sys2Proof.Proofs

open Sys2Proof Sys2Proof.Machine

theorem envSame_refl (s : State) : EnvSame s s := ⟨rfl, rfl, rfl, rfl, rfl⟩

/-- Every step, a latched one and a fetch fault included, is some handler's state and then the end of the step. -/
theorem step_eq_endStep (s : State) : ∃ u, step s = .next u.endStep ∧ EnvSame s.beginStep u := by
  obtain ⟨-, h⟩ | ⟨-, -, h⟩ | ⟨i, u, -, hx, h⟩ | ⟨_, -, -, -, h⟩ := step_cases s
  · exact ⟨_, h, envSame_refl _⟩
  · exact ⟨_, h, rfl, rfl, rfl, rfl, rfl⟩
  · exact ⟨u, h, envSame_of_exec hx⟩
  · exact ⟨_, h, rfl, rfl, rfl, rfl, rfl⟩

/-- The fields of the model's own that every step leaves in one way. -/
structure StepEnv (s t : State) : Prop where
  addiThreshold : t.addiThreshold = s.addiThreshold
  font : t.font = s.font
  loadOpen : t.loadOpen = false
  inputs : t.inputs = s.inputs.tail

theorem stepEnv_of_step {s t : State} (h : step s = .next t) : StepEnv s t := by
  obtain ⟨u, hu, henv⟩ := step_eq_endStep s
  cases h.symm.trans hu
  constructor
  · rw [State.endStep_addiThreshold, henv.addiThreshold, State.beginStep_addiThreshold]
  · rw [State.endStep_font, henv.font, State.beginStep_font]
  · rw [State.endStep_loadOpen, henv.loadOpen, State.beginStep_loadOpen]
  · rw [State.endStep_inputs, henv.inputs, State.beginStep_inputs]

theorem keepsRest_trans {ps qs : List Part} {s t u : State} (h : KeepsRest ps s t) (h' : KeepsRest qs t u) :
    KeepsRest (ps ++ qs) s u := by
  intro p hp
  rw [List.mem_append, not_or] at hp
  have hst := h p hp.1
  have htu := h' p hp.2
  cases p <;> simp_all [Part.same]

theorem endStep_keeps (t : State) : KeepsRest [.dt, .st] t t.endStep := (step_frame_around t t).2

theorem beginStep_keeps (s : State) : KeepsRest [.changed] s s.beginStep := (step_frame_around s s).1

/-- With a fault latched the timers do not tick, so the end of the step keeps every piece of state. -/
theorem endStep_keeps_of_fault {t : State} (h : t.fault ≠ none) : KeepsRest [] t t.endStep := by
  have hf : t.fault.isSome = true := Option.isSome_iff_ne_none.mpr h
  intro p _
  cases p <;> simp [Part.same, hf]

theorem endStep_dt_of_ok {t : State} (h : t.fault = none) : t.endStep.dt = tickTimer t.dt := by simp [h]

theorem endStep_st_of_ok {t : State} (h : t.fault = none) : t.endStep.st = tickTimer t.st := by simp [h]

/-! ### The step and its handler -/

/-- Settles O8: `exec` answers a next state, and the parts around it change only what they name. -/
theorem stepRunsDecodedInstruction : Obligations.StepRunsDecodedInstruction := by
  refine ⟨fun s i hr _ => ?_, fun _ => rfl, fun t h => ?_, fun t h => ?_, fun t => ?_⟩
  · obtain ⟨t, ht, -⟩ := exec_next i s.beginStep
    exact ⟨t, ht, by rw [step_of_runs hr, ht, finish]⟩
  · exact ⟨endStep_dt_of_ok h, endStep_st_of_ok h⟩
  · exact ⟨endStep_keeps_of_fault h .dt (by simp), endStep_keeps_of_fault h .st (by simp)⟩
  · exact ⟨endStep_keeps t, State.endStep_addiThreshold t, State.endStep_font t, State.endStep_loadOpen t,
      State.endStep_inputs t⟩

/-- Settles O14: the latch is empty or not, and `State.result` reads it. -/
theorem everyStepEnds : Obligations.EveryStepEnds := by
  intro s
  obtain ⟨u, hu, -⟩ := step_eq_endStep s
  have henv := stepEnv_of_step hu
  refine ⟨u.endStep, hu, ?_, henv.addiThreshold, henv.font, henv.loadOpen⟩
  unfold State.result
  cases u.endStep.fault with
  | none => exact .inl ⟨rfl, rfl⟩
  | some r => exact .inr ⟨r, rfl, rfl⟩

/-- Settles O23: the step takes off the input presented, which stands at the head of the schedule. -/
theorem stepTakesTheDriversInputs : Obligations.StepTakesTheDriversInputs :=
  fun _ _ _ _ h => ⟨(stepEnv_of_step h).inputs, rfl⟩

/-! ### The steps that run no instruction -/

/-- Settles O9: the handler is the fallback, which moves `pc` only. -/
theorem unknownWordIsNoOp : Obligations.UnknownWordIsNoOp := by
  intro s hf hp hd
  have hstep := step_of_unknown hf hp hd
  have henv := stepEnv_of_step hstep
  refine ⟨_, hstep, by simp, by simp, endStep_dt_of_ok hf, endStep_st_of_ok hf, ?_, henv.addiThreshold, henv.font⟩
  have hadv : KeepsRest [.pc] s.beginStep s.beginStep.advance := by
    intro p hp
    cases p <;> simp_all [Part.same]
  exact (keepsRest_trans (keepsRest_trans (beginStep_keeps s) hadv) (endStep_keeps _)).mono (by decide)

/-- Settles O10: a 16-bit `pc` above 4094 is 4095, where the word's second byte is out of range, or itself out of range. -/
theorem fetchBeyondMemoryFaults : Obligations.FetchBeyondMemoryFaults := by
  intro s hf hp
  have hstep := step_of_fetch_fault hf (by omega)
  have henv := stepEnv_of_step hstep
  have hinfo := lowestBadAddress_toNat s.pc.isLt
  refine ⟨_, ⟨3, s.pc, lowestBadAddress s.pc.toNat⟩, hstep, State.endStep_fault _, rfl, rfl, ?_, State.endStep_changed _, ?_,
    henv.addiThreshold, henv.font⟩
  · rw [hinfo]
    split <;> omega
  · have hkeep := State.takeFault_keeps s.beginStep (.fetchRange (lowestBadAddress s.pc.toNat))
    have hbody := keepsRest_trans (beginStep_keeps s) hkeep
    exact (keepsRest_trans hbody (endStep_keeps_of_fault (by simp))).mono (by decide)

/-- Settles O11: the handler is no handler at all. -/
theorem latchedFaultIsSticky : Obligations.LatchedFaultIsSticky := by
  intro s r hr
  have hf : s.fault ≠ none := by simp [hr]
  have hstep := step_of_latched hf
  have henv := stepEnv_of_step hstep
  have hlatch : s.beginStep.endStep.fault = some r := by simp [hr]
  refine ⟨_, hstep, hlatch, ?_, by simp, ?_, henv.addiThreshold, henv.font⟩
  · rw [State.result, hlatch]
  · exact (keepsRest_trans (beginStep_keeps s) (endStep_keeps_of_fault hf)).mono (by decide)

end Sys2Proof.Proofs
end

section
/-! Faults (60_exceptions.md R210 to R217): which instruction raises which, with which record; and that a step that ends with
the latch set has no other effect than clearing `changed`. -/

namespace Sys2Proof.Proofs

open Sys2Proof Sys2Proof.Machine

/-! ### The causes -/

/-- A handler that goes on to `t` on the condition `c` and faults otherwise, as a table of causes says it: by the cause `d`. -/
theorem fault_of_ite {c d : Prop} [Decidable c] [Decidable d] {s t : State} {f : Fault} (hcd : c ↔ ¬ d)
    (ht : t.fault = none) :
    (if c then t else s.takeFault f).fault = if d then some ⟨f.code, s.pc, f.info⟩ else none := by
  by_cases hd : d
  · rw [if_neg (by simpa [hcd] using hd), if_pos hd, State.takeFault_fault]
  · rw [if_pos (hcd.mpr hd), if_neg hd, ht]

/-- From a state with no fault latched, `exec` latches the fault of the table of causes. -/
theorem exec_fault {i : Instr} {s t : State} (h : exec i s = .next t) (hf : s.fault = none) :
    t.fault = expectedFault i s := by
  cases i
  case ret =>
    by_cases hz : s.sp.val = 0
    · rw [exec_ret_of_zero hz] at h; cases h
      exact (if_pos (Fin.ext hz)).symm
    · rw [exec_ret_of_pos (Nat.pos_of_ne_zero hz)] at h; cases h
      exact hf.trans (if_neg fun e => hz (congrArg Fin.val e)).symm
  case call nnn =>
    by_cases hz : s.sp.val = 16
    · rw [exec_call_of_full nnn hz] at h; cases h
      exact (if_pos (Fin.ext hz)).symm
    · rw [exec_call_of_lt nnn (by omega)] at h; cases h
      exact hf.trans (if_neg fun e => hz (congrArg Fin.val e)).symm
  case drawSprite x y n => rw [exec_drawSprite_eq] at h; cases h; exact fault_of_ite (by omega) hf
  case storeBcd x => rw [exec_storeBcd_eq] at h; cases h; exact fault_of_ite (by omega) hf
  case regDump x => rw [exec_regDump_eq] at h; cases h; exact fault_of_ite (by omega) hf
  case regLoad x => rw [exec_regLoad_eq] at h; cases h; exact fault_of_ite (by omega) ((setRegs_fault ..).trans hf)
  case addToIndex x => rw [exec_addToIndex_eq, ← ite_not] at h; cases h; exact fault_of_ite Iff.rfl hf
  case skipKeyPressed x =>
    rw [exec_skipKeyPressed_eq, ← ite_not] at h; cases h
    rw [expectedFault, BitVec.ofNat_toNat]
    exact fault_of_ite Iff.rfl hf
  case skipKeyNotPressed x =>
    rw [exec_skipKeyNotPressed_eq, ← ite_not] at h; cases h
    rw [expectedFault, BitVec.ofNat_toNat]
    exact fault_of_ite Iff.rfl hf
  all_goals cases h; exact hf

/-- Settles O13: `beginStep` changes nothing that the table of causes reads, and `endStep` keeps the latch. -/
theorem faultCausesAreExact : Obligations.FaultCausesAreExact := by
  intro s t i hr hst
  obtain ⟨u, hu, -⟩ := exec_next i s.beginStep
  rw [step_of_runs hr, hu] at hst
  cases hst
  rw [State.endStep_fault, exec_fault hu hr.1]
  cases i <;> rfl

/-! ### Legal records -/

theorem dataFault_legal {s : State} (hp : s.pc.toNat ≤ 4094) :
    FaultRecord.legal ⟨4, s.pc, BitVec.ofNat 17 (max s.i.toNat 4096)⟩ := by
  have hi : s.i.toNat < 65536 := s.i.isLt
  have hinfo : (BitVec.ofNat 17 (max s.i.toNat 4096)).toNat = max s.i.toNat 4096 := lowestBadAddress_toNat hi
  exact .inr (.inr (.inr (.inl ⟨rfl, by rw [hinfo]; omega, by rw [hinfo]; omega, hp⟩)))

theorem indexFault_legal {s : State} {x : Reg} (hp : s.pc.toNat ≤ 4094) (hc : 65535 < s.i.toNat + (s.reg x).toNat) :
    FaultRecord.legal ⟨5, s.pc, BitVec.ofNat 17 (s.i.toNat + (s.reg x).toNat)⟩ := by
  have hi : s.i.toNat < 65536 := s.i.isLt
  have hx : (s.reg x).toNat < 256 := (s.reg x).isLt
  have hinfo : (BitVec.ofNat 17 (s.i.toNat + (s.reg x).toNat)).toNat = s.i.toNat + (s.reg x).toNat :=
    Nat.mod_eq_of_lt (by omega)
  exact .inr (.inr (.inr (.inr (.inl ⟨rfl, by rw [hinfo]; omega, by rw [hinfo]; omega, hp⟩))))

theorem keyFault_legal {s : State} {x : Reg} (hp : s.pc.toNat ≤ 4094) (hc : 15 < (s.reg x).toNat) :
    FaultRecord.legal ⟨6, s.pc, BitVec.ofNat 17 (s.reg x).toNat⟩ := by
  have hx : (s.reg x).toNat < 256 := (s.reg x).isLt
  have hinfo : (BitVec.ofNat 17 (s.reg x).toNat).toNat = (s.reg x).toNat := Nat.mod_eq_of_lt (by omega)
  exact .inr (.inr (.inr (.inr (.inr ⟨rfl, by rw [hinfo]; omega, by rw [hinfo]; omega, hp⟩))))

/-- What the table of causes gives an instruction that was fetched is a legal record of its `pc`. -/
theorem expectedFault_legal {i : Instr} {s : State} {r : FaultRecord} (hp : s.pc.toNat ≤ 4094)
    (h : expectedFault i s = some r) : r.legal ∧ r.fpc = s.pc := by
  cases i
  case call => obtain ⟨-, ⟨⟩⟩ := Option.ite_none_right_eq_some.mp h; exact ⟨.inl ⟨rfl, rfl, hp⟩, rfl⟩
  case ret => obtain ⟨-, ⟨⟩⟩ := Option.ite_none_right_eq_some.mp h; exact ⟨.inr (.inl ⟨rfl, rfl, hp⟩), rfl⟩
  case drawSprite | storeBcd | regDump | regLoad =>
    obtain ⟨-, ⟨⟩⟩ := Option.ite_none_right_eq_some.mp h
    exact ⟨dataFault_legal hp, rfl⟩
  case addToIndex => obtain ⟨hc, ⟨⟩⟩ := Option.ite_none_right_eq_some.mp h; exact ⟨indexFault_legal hp hc, rfl⟩
  case skipKeyPressed | skipKeyNotPressed =>
    obtain ⟨hc, ⟨⟩⟩ := Option.ite_none_right_eq_some.mp h
    exact ⟨keyFault_legal hp hc, rfl⟩
  all_goals cases h

/-! ### Precise faults -/

theorem fault_not_mem_touches (i : Instr) : Part.fault ∉ i.touches := by cases i <;> simp [Instr.touches]

/-- An instruction that latches a fault only takes it. -/
theorem exec_eq_takeFault {i : Instr} {s t : State} (h : exec i s = .next t) (hs : s.fault = none) (ht : t.fault ≠ none) :
    ∃ f, t = s.takeFault f := by
  obtain hf | hkeep := exec_frame h
  · exact hf
  · exact absurd ((hkeep .fault (fault_not_mem_touches i)).trans hs) ht

/-- Settles O12: the fetch fault is O10's; a handler that faults only takes a fault, one of the table of causes. -/
theorem faultingStepIsPrecise : Obligations.FaultingStepIsPrecise := by
  intro s t hs hst ht
  obtain ⟨hl, -⟩ | ⟨-, hp, -⟩ | ⟨i, u, hr, hx, hstep⟩ | ⟨e, -, -, -, hstep⟩ := step_cases s
  · exact absurd hs hl
  · obtain ⟨t', r, hst', hr, hcode, hpc, hinfo, hchanged, hkeep, -⟩ := fetchBeyondMemoryFaults s hs hp
    cases hst.symm.trans hst'
    refine ⟨r, hr, .inr (.inr (.inl ⟨hcode, ?_, hpc ▸ hp⟩)), hpc, hchanged, hkeep⟩
    rw [hinfo, hpc]
    split <;> omega
  · cases hst.symm.trans hstep
    rw [State.endStep_fault] at ht ⊢
    have hcause := exec_fault hx hr.1
    obtain ⟨f, rfl⟩ := exec_eq_takeFault hx hr.1 ht
    obtain ⟨hlegal, hpc⟩ := expectedFault_legal hr.2.1 (hcause.symm.trans (State.takeFault_fault ..))
    refine ⟨_, State.takeFault_fault .., hlegal, hpc, State.endStep_changed _, ?_⟩
    have hkeep := keepsRest_trans (beginStep_keeps s) (State.takeFault_keeps _ f)
    exact (keepsRest_trans hkeep (endStep_keeps_of_fault ht)).mono (by decide)
  · cases hst.symm.trans hstep
    rw [State.endStep_fault] at ht
    exact absurd hs ht

/-- A step that ends with the latch set, by it or before it, changes nothing but `changed` and the latch. -/
theorem step_keeps_of_fault {s t : State} (h : step s = .next t) (ht : t.fault ≠ none) :
    t.changed = false ∧ KeepsRest [.changed, .fault] s t := by
  cases hs : s.fault with
  | none =>
    obtain ⟨r, -, -, -, hchanged, hkeep⟩ := faultingStepIsPrecise s t hs h ht
    exact ⟨hchanged, hkeep⟩
  | some r =>
    obtain ⟨t', hst', -, -, hchanged, hkeep, -⟩ := latchedFaultIsSticky s r hs
    cases h.symm.trans hst'
    exact ⟨hchanged, hkeep.mono (by decide)⟩

theorem fault_eq_none_of_step {s t : State} (h : step s = .next t) (ht : t.fault = none) : s.fault = none := by
  cases hs : s.fault with
  | none => rfl
  | some r =>
    obtain ⟨t', hst', hr, -⟩ := latchedFaultIsSticky s r hs
    cases h.symm.trans hst'
    exact absurd ht (by simp [hr])

/-- Settles O30: the outputs read the state, and a step that ends faulted kept the framebuffer and cleared `changed`. -/
theorem snapshotOfAStep : Obligations.SnapshotOfAStep := by
  intro s t hst
  refine ⟨rfl, rfl, decide_eq_true_iff, fun ht => by rw [State.faultOutputs, ht]; rfl, fun r hr => ?_⟩
  obtain ⟨hchanged, hkeep⟩ := step_keeps_of_fault hst (by simp [hr])
  exact ⟨by rw [State.faultOutputs, hr]; rfl, hchanged, hkeep .fb (by decide)⟩

end Sys2Proof.Proofs
end

section
/-! Who may write what (10_state.md R29 to R34, 20_memory.md R69, 44_display.md R192). A piece of state that a step changes is
one that its instruction touches (`Instr.touches`), and the instruction did not fault. -/

namespace Sys2Proof.Proofs

open Sys2Proof Sys2Proof.Machine

/-- Around its handler a step changes `changed` and the timers only. -/
theorem same_around_handler {p : Part} {s u : State} (h : p.same s.beginStep u) (hp : p ∉ [.changed, .dt, .st]) :
    p.same s u.endStep := by
  cases p <;> simp_all [Part.same]

/-- A piece of state that every step may change is `pc`, a timer, `changed` or the latch; any other is changed by a step only
through an instruction that touches it and does not fault. -/
theorem touched_of_step_changes {s t : State} {p : Part} (h : step s = .next t) (hne : ¬ p.same s t)
    (hp : p ∉ [.pc, .dt, .st, .changed, .fault]) :
    ∃ i u, s.Runs i ∧ exec i s.beginStep = .next u ∧ t = u.endStep ∧ u.fault = none ∧ p ∈ i.touches := by
  have ht : t.fault = none := by
    by_contra ht
    obtain ⟨-, hkeep⟩ := step_keeps_of_fault h ht
    exact hne (hkeep p (by simp_all))
  obtain ⟨u, hu, huf, rfl⟩ := safeStep_handled ⟨fault_eq_none_of_step h ht, h, ht⟩
  by_contra hno
  refine hne (same_around_handler (handled_same hu (fun i hr hm => hno ?_) (by simp_all)) (by simp_all))
  exact ⟨i, u, hr, exec_of_handled hu hr, rfl, huf, hm⟩

/-! ### Which instructions touch which piece of state -/

theorem fb_mem_touches_iff (i : Instr) : Part.fb ∈ i.touches ↔ i.writesDisplay := by
  cases i <;> simp [Instr.touches, Instr.writesDisplay]

theorem sp_mem_touches_iff (i : Instr) : Part.sp ∈ i.touches ↔ i = .ret ∨ ∃ nnn, i = .call nnn := by
  cases i <;> simp [Instr.touches]

theorem stack_mem_touches_iff (i : Instr) : Part.stack ∈ i.touches ↔ ∃ nnn, i = .call nnn := by
  cases i <;> simp [Instr.touches]

theorem mem_mem_touches_iff (i : Instr) : Part.mem ∈ i.touches ↔ (∃ x, i = .storeBcd x) ∨ ∃ x, i = .regDump x := by
  cases i <;> simp [Instr.touches]

theorem i_mem_touches_iff (i : Instr) :
    Part.i ∈ i.touches ↔ (∃ nnn, i = .loadIndexImm nnn) ∨ (∃ x, i = .addToIndex x) ∨ ∃ x, i = .loadFontAddr x := by
  cases i <;> simp [Instr.touches]

/-! ### The framebuffer -/

theorem loadPort_eq_next_iff {s t : State} {rom : List Byte} :
    s.loadPort rom = .next t ↔ s.loadOpen = true ∧ t = (s.putBytes 0x200 (rom.take 3584)).closeLoad := by
  unfold State.loadPort
  split
  · rename_i ho
    simpa [ho] using eq_comm
  · rename_i ho
    simp [ho]

/-- Settles O17: the two instructions that touch `fb` are the two that raise `changed` (O16). -/
theorem framebufferHasTwoWriters : Obligations.FramebufferHasTwoWriters := by
  refine ⟨fun s t hst hne => ?_, fun s t rom h => ?_, fun s => Framebuffer.blank_cell⟩
  · obtain ⟨i, u, hr, -, rfl, hf, hm⟩ := touched_of_step_changes (p := .fb) hst hne (by decide)
    have hw : ∃ i, s.Runs i ∧ i.writesDisplay := ⟨i, hr, (fb_mem_touches_iff i).mp hm⟩
    have ht : u.endStep.fault = none := (State.endStep_fault u).trans hf
    exact ⟨(changedMarksDisplayWrites s _ hst).mpr ⟨ht, hw⟩, ht, hw⟩
  · obtain ⟨-, rfl⟩ := loadPort_eq_next_iff.mp h
    rfl

/-! ### The stack -/

/-- A call that does not fault writes the entry at `sp` only. -/
theorem exec_call_stack_other {s u : State} {nnn : Addr12} (h : exec (.call nnn) s = .next u) (hf : u.fault = none) {k : Nat}
    (hk : k < 16) (hne : k ≠ s.sp.val) : u.stack[k] = s.stack[k] := by
  obtain ⟨hfull, hroom⟩ := callPushesTheReturnAddress s nnn
  by_cases hsp : s.sp.val < 16
  · obtain ⟨t, ht, -, -, hother, -⟩ := hroom hsp
    cases h.symm.trans ht
    exact hother k hk hne
  · obtain ⟨ht, -⟩ := hfull (Fin.ext (show s.sp.val = 16 by omega))
    cases h.symm.trans ht
    cases hf

/-- Settles O18: the two instructions that touch `sp`, and the one that touches the stack. -/
theorem stackMovesOnlyByCallAndReturn : Obligations.StackMovesOnlyByCallAndReturn := by
  intro s t hst
  refine ⟨fun hne => ?_, fun k hk hne => ?_⟩
  · obtain ⟨i, u, hr, -, -, -, hm⟩ := touched_of_step_changes (p := .sp) hst hne (by decide)
    obtain rfl | ⟨nnn, rfl⟩ := (sp_mem_touches_iff i).mp hm
    · exact .inl hr
    · exact .inr ⟨nnn, hr⟩
  · have hstack : t.stack ≠ s.stack := fun e => hne (by rw [e])
    obtain ⟨i, u, hr, hx, rfl, hf, hm⟩ := touched_of_step_changes (p := .stack) hst hstack (by decide)
    obtain ⟨nnn, rfl⟩ := (stack_mem_touches_iff i).mp hm
    refine ⟨?_, nnn, hr⟩
    by_contra hk'
    simp only [State.endStep_stack] at hne
    exact hne (exec_call_stack_other hx hf hk hk')

/-! ### Memory -/

/-- A store through `I` that may fault instead leaves every byte outside its range alone. -/
theorem byte_ite_putBytes_other {s : State} {bs : List Byte} {c : Prop} [Decidable c] {a : Nat}
    (h : ¬ (s.i.toNat ≤ a ∧ a < s.i.toNat + bs.length)) :
    (if c then (s.putBytes s.i.toNat bs).advance else s.takeDataFault).byte a = s.byte a := by
  split
  · exact State.byte_putBytes_other s h
  · rfl

/-- Settles O19: outside the stored range both instructions leave every byte alone. -/
theorem memoryHasTwoWriters : Obligations.MemoryHasTwoWriters := by
  intro s t a hst hne
  obtain ⟨i, u, hr, hx, rfl, -, hm⟩ := touched_of_step_changes (p := .mem) hst (fun h => hne (h a)) (by decide)
  rw [State.endStep_byte] at hne
  obtain ⟨x, rfl⟩ | ⟨x, rfl⟩ := (mem_mem_touches_iff i).mp hm
  · rw [exec_storeBcd_eq] at hx
    cases hx
    by_contra hno
    exact hne (byte_ite_putBytes_other fun hb => hno (.inl ⟨x, hr, hb⟩))
  · rw [exec_regDump_eq] at hx
    cases hx
    by_contra hno
    exact hne (byte_ite_putBytes_other fun hb => hno (.inr ⟨x, hr, by rwa [State.regs_length] at hb⟩))

/-! ### The registers -/

theorem otherRegsSame_setReg (s : State) (x : Reg) (b : Byte) : OtherRegsSame [x] s (s.setReg x b).advance := by
  intro z hz
  rw [State.advance_reg, State.setReg_reg, if_neg (List.ne_of_not_mem_cons hz)]

theorem otherRegsSame_writeResult (s : State) (x : Reg) (b : Byte) (f : Bool) :
    OtherRegsSame [x, 15] s (s.writeResult x b f) := by
  intro z hz
  simp only [List.mem_cons, List.not_mem_nil, or_false, not_or] at hz
  rw [State.writeResult_reg, flagReg, if_neg hz.2, if_neg hz.1]

/-- A general register that an instruction does not name as a destination, nor define as the flag, keeps its value. -/
theorem exec_otherRegsSame {i : Instr} {s u : State} (h : exec i s = .next u) : OtherRegsSame i.writes s u := by
  by_cases hv : Part.v ∈ i.touches
  · cases i
    case drawSprite x y n =>
      rw [exec_drawSprite_eq] at h; cases h
      intro z hz
      have hz : z ≠ flagReg := List.ne_of_not_mem_cons hz
      split <;> simp [hz]
    case addToIndex x =>
      rw [exec_addToIndex_eq] at h; cases h
      intro z hz
      have hz : z ≠ flagReg := List.ne_of_not_mem_cons hz
      split <;> simp [hz]
    case regLoad x =>
      intro z hz
      have hx : x.toNat < z.toNat := by
        by_contra hle
        refine hz (List.mem_map.mpr ⟨z.toNat, List.mem_range.mpr (by omega), ?_⟩)
        rw [BitVec.ofNat_toNat, BitVec.setWidth_eq]
      obtain ⟨hin, hout⟩ := registerLoadReadsTheRange s x
      by_cases hr : s.i.toNat + x.toNat ≤ 4095
      · obtain ⟨t, ht, -, hother, -⟩ := hin hr
        cases h.symm.trans ht
        exact hother z hx
      · obtain ⟨a, -, ht, -⟩ := hout (by omega)
        cases h.symm.trans ht
        rfl
    case addReg | subReg | shiftRight | subReverse | shiftLeft => cases h; exact otherRegsSame_writeResult _ _ _ _
    case loadImm | addImm | move | orReg | andReg | xorReg | randomMasked | readDelayTimer | waitForKey =>
      cases h; exact otherRegsSame_setReg _ _ _
    all_goals simp [Instr.touches] at hv
  · exact fun z _ => exec_same_of_not_touched (p := .v) h hv (by decide) z

/-- Settles O20: `endStep` and `beginStep` keep the registers, so the instruction changed it. -/
theorem registersChangeOnlyAsDestinations : Obligations.RegistersChangeOnlyAsDestinations := by
  intro s t z hst hne
  obtain ⟨i, u, hr, hx, rfl, -, -⟩ := touched_of_step_changes (p := .v) hst (fun h => hne (h z)) (by decide)
  rw [State.endStep_reg] at hne
  refine ⟨i, hr, ?_⟩
  by_contra hz
  exact hne (exec_otherRegsSame hx z hz)

/-! ### The index register -/

/-- Settles O21: three families touch `I`. -/
theorem indexHasThreeWriters : Obligations.IndexHasThreeWriters := by
  intro s t hst hne
  obtain ⟨i, -, hr, -, -, -, hm⟩ := touched_of_step_changes (p := .i) hst hne (by decide)
  exact ⟨i, hr, (i_mem_touches_iff i).mp hm⟩

end Sys2Proof.Proofs
end

section
/-! The invariant of reachable states (10_state.md R27, R51; 60_exceptions.md R211, R215; 70_reset_and_hazards.md R240 to R244),
and the ports reset and load. `Bounds` is the part of the invariant that a handler keeps; the latch comes from precise faults,
and a step always ends the load phase. -/

namespace Sys2Proof.Proofs

open Sys2Proof Sys2Proof.Machine

/-! ### What a handler keeps -/

/-- The part of the invariant that speaks of memory, `pc` and the stack. -/
structure Bounds (s : State) : Prop where
  memory : s.memWf = true
  pcBound : s.pc.toNat ≤ 0x10FE
  stackBound : ∀ (k : Nat) (h : k < 16), (s.stack[k]'h).toNat ≤ 4096

theorem bounds_of_inv {s : State} (h : s.Inv) : Bounds s := ⟨h.memory, h.pcBound, h.stackBound⟩

theorem bounds_beginStep {s : State} (h : Bounds s) : Bounds s.beginStep := ⟨h.memory, h.pcBound, h.stackBound⟩

theorem bounds_takeFault {s : State} (h : Bounds s) (f : Fault) : Bounds (s.takeFault f) :=
  ⟨h.memory, h.pcBound, h.stackBound⟩

theorem bounds_endStep {s : State} (h : Bounds s) : Bounds s.endStep := by
  refine ⟨?_, ?_, fun k hk => ?_⟩
  · rw [State.endStep_memWf, h.memory]
  · rw [State.endStep_pc]
    exact h.pcBound
  · simp only [State.endStep_stack]
    exact h.stackBound k hk

theorem bounds_of_stack_same {s u : State} (h : Bounds s) (hm : u.memWf = true) (hp : u.pc.toNat ≤ 0x10FE)
    (hs : u.stack = s.stack) : Bounds u :=
  ⟨hm, hp, by rw [hs]; exact h.stackBound⟩

/-- From a `pc` at which a word was fetched, `pc + 2` and `pc + 4` do not wrap. -/
theorem pc_add_toNat {a : Word} {k : Nat} (ha : a.toNat ≤ 4094) (hk : k ≤ 4) : (a + BitVec.ofNat 16 k).toNat = a.toNat + k := by
  rw [BitVec.toNat_add, BitVec.toNat_ofNat, Nat.mod_eq_of_lt (show k < 2 ^ 16 by omega)]
  exact Nat.mod_eq_of_lt (show a.toNat + k < 65536 by omega)

theorem advance_pc_le {s : State} (hp : s.pc.toNat ≤ 4094) : s.advance.pc.toNat ≤ 0x10FE := by
  have h : (s.pc + 2).toNat = s.pc.toNat + 2 := pc_add_toNat hp (by decide)
  rw [State.advance_pc, h]
  omega

theorem skipIf_pc_le {s : State} (hp : s.pc.toNat ≤ 4094) (c : Bool) : (s.skipIf c).pc.toNat ≤ 0x10FE := by
  have h2 : (s.pc + 2).toNat = s.pc.toNat + 2 := pc_add_toNat hp (by decide)
  have h4 : (s.pc + 4).toNat = s.pc.toNat + 4 := pc_add_toNat hp (by decide)
  rw [State.skipIf_pc]
  split
  · rw [h4]; omega
  · rw [h2]; omega

theorem addr16_le (nnn : Addr12) : (addr16 nnn).toNat ≤ 0x10FE := by
  rw [addr16_toNat]
  omega

/-- `0xFFF + 0xFF` fits 16 bits, so the target of jump-with-offset is the exact sum. -/
theorem jumpOffset_target_toNat (nnn : Addr12) (b : Byte) : (addr16 nnn + byte16 b).toNat = nnn.toNat + b.toNat := by
  have hb : (byte16 b).toNat = b.toNat := BitVec.toNat_setWidth_of_le (by decide)
  rw [BitVec.toNat_add, addr16_toNat, hb]
  exact Nat.mod_eq_of_lt (show nnn.toNat + b.toNat < 65536 by omega)

/-- A store that fits in memory, and then the advance past the instruction. -/
theorem bounds_putBytes {s : State} {a : Nat} {bs : List Byte} (h : Bounds s) (hp : s.pc.toNat ≤ 4094)
    (hr : a + bs.length ≤ 4096) : Bounds (s.putBytes a bs).advance :=
  bounds_of_stack_same h (State.putBytes_memWf hr h.memory) (advance_pc_le hp) rfl

/-- Every instruction keeps the bounds when it was fetched. -/
theorem exec_keeps_bounds {i : Instr} {s u : State} (h : exec i s = .next u) (hi : Bounds s) (hp : s.pc.toNat ≤ 4094) :
    Bounds u := by
  cases i
  case ret =>
    by_cases hz : s.sp.val = 0
    · rw [exec_ret_of_zero hz] at h; cases h
      exact bounds_takeFault hi _
    · rw [exec_ret_of_pos (by omega)] at h; cases h
      exact bounds_of_stack_same hi hi.memory (Nat.le_trans (hi.stackBound _ _) (by decide)) rfl
  case call nnn =>
    by_cases hz : s.sp.val < 16
    · rw [exec_call_of_lt nnn hz] at h; cases h
      refine ⟨hi.memory, addr16_le nnn, fun k hk => ?_⟩
      have hpush : (s.pc + 2).toNat = s.pc.toNat + 2 := pc_add_toNat hp (by decide)
      rw [Vector.getElem_set]
      split
      · rw [hpush]; omega
      · exact hi.stackBound k hk
    · rw [exec_call_of_full nnn (by omega)] at h; cases h
      exact bounds_takeFault hi _
  case jump nnn => cases h; exact bounds_of_stack_same hi hi.memory (addr16_le nnn) rfl
  case jumpOffset nnn =>
    cases h
    refine bounds_of_stack_same hi hi.memory ?_ rfl
    rw [State.setPc_pc, jumpOffset_target_toNat]
    omega
  case skipEqImm | skipNeImm | skipEqReg | skipNeReg =>
    cases h; exact bounds_of_stack_same hi hi.memory (skipIf_pc_le hp _) rfl
  case skipKeyPressed x =>
    rw [exec_skipKeyPressed_eq] at h; cases h
    split
    · exact bounds_takeFault hi _
    · exact bounds_of_stack_same hi hi.memory (skipIf_pc_le hp _) rfl
  case skipKeyNotPressed x =>
    rw [exec_skipKeyNotPressed_eq] at h; cases h
    split
    · exact bounds_takeFault hi _
    · exact bounds_of_stack_same hi hi.memory (skipIf_pc_le hp _) rfl
  case drawSprite x y n =>
    rw [exec_drawSprite_eq] at h; cases h
    split
    · exact bounds_of_stack_same hi hi.memory (advance_pc_le hp) rfl
    · exact bounds_takeFault hi _
  case addToIndex x =>
    rw [exec_addToIndex_eq] at h; cases h
    split
    · exact bounds_takeFault hi _
    · exact bounds_of_stack_same hi hi.memory (advance_pc_le hp) rfl
  case storeBcd x =>
    rw [exec_storeBcd_eq] at h; cases h
    split
    · rename_i hr
      exact bounds_putBytes hi hp hr
    · exact bounds_takeFault hi _
  case regDump x =>
    rw [exec_regDump_eq] at h; cases h
    split
    · rename_i hr
      exact bounds_putBytes hi hp (by rwa [State.regs_length])
    · exact bounds_takeFault hi _
  case regLoad x =>
    rw [exec_regLoad_eq] at h; cases h
    split
    · obtain ⟨v, hv⟩ := State.setRegs_eq (s.bytes s.i.toNat (x.toNat + 1)) s 0
      rw [hv]
      exact bounds_of_stack_same hi hi.memory (advance_pc_le hp) rfl
    · exact bounds_takeFault hi _
  all_goals cases h; exact bounds_of_stack_same hi hi.memory (advance_pc_le hp) rfl

/-! ### Every step keeps the invariant -/

theorem step_keeps_bounds {s t : State} (h : step s = .next t) (hi : Bounds s) : Bounds t := by
  have hb := bounds_beginStep hi
  obtain ⟨-, hstep⟩ | ⟨-, -, hstep⟩ | ⟨i, u, hr, hx, hstep⟩ | ⟨_, -, hp, -, hstep⟩ := step_cases s <;>
    cases h.symm.trans hstep
  · exact bounds_endStep hb
  · exact bounds_endStep (bounds_takeFault hb _)
  · exact bounds_endStep (exec_keeps_bounds hx hb hr.2.1)
  · exact bounds_endStep (bounds_of_stack_same hb hb.memory (advance_pc_le (s := s.beginStep) hp) rfl)

/-- Settles O24: the bounds are the handler's; a record latched by this step is precise (O12), one latched before stays
(O11); and the load phase is over. -/
theorem stepKeepsInvariant : Obligations.StepKeepsInvariant := by
  intro s t hi hst
  have hb := step_keeps_bounds hst (bounds_of_inv hi)
  refine ⟨hb.memory, hb.pcBound, hb.stackBound, fun r hr => ?latch, fun hopen => ?loadPhase⟩
  case latch =>
    obtain ⟨hchanged, hkeep⟩ := step_keeps_of_fault hst (by simp [hr])
    have hpc : t.pc = s.pc := hkeep .pc (by decide)
    cases hs : s.fault with
    | none =>
      obtain ⟨r', hr', hlegal, hfpc, -⟩ := faultingStepIsPrecise s t hs hst (by simp [hr])
      cases hr.symm.trans hr'
      exact ⟨hlegal, hfpc.trans hpc.symm, hchanged⟩
    | some r' =>
      obtain ⟨t', hst', hr', -⟩ := latchedFaultIsSticky s r' hs
      cases hst.symm.trans hst'
      cases hr.symm.trans hr'
      obtain ⟨hlegal, hfpc, -⟩ := hi.latch r hs
      exact ⟨hlegal, hfpc.trans hpc.symm, hchanged⟩
  case loadPhase => simp [(stepEnv_of_step hst).loadOpen] at hopen

/-! ### Reset -/

theorem resetPort_inv (s : State) : s.resetPort.Inv where
  memory := rfl
  pcBound := show (0x200 : Word).toNat ≤ 0x10FE by decide
  stackBound k hk := by simp [State.resetPort, State.reset]
  latch r hr := by cases hr
  loadPhase _ := rfl

/-- Settles O25: resetting the reset state gives it back. -/
theorem resetMeetsInvariant : Obligations.ResetMeetsInvariant := resetPort_inv State.reset

/-- Settles O28: with nothing listed memory reads as the font, which the port keeps, then zero. -/
theorem resetPortIsTotal : Obligations.ResetPortIsTotal := by
  intro s
  have hbyte := State.byte_of_mem_nil (s := s.resetPort) rfl
  refine ⟨rfl, fun p hp => ?_, fun a ha => ?_, fun a ha => ?_, rfl, rfl, rfl, rfl⟩
  · cases p
    case mem => exact absurd (List.mem_singleton_self _) hp
    case v => exact fun _ => rfl
    all_goals rfl
  · rw [hbyte, dif_pos ha]
    rfl
  · rw [hbyte, dif_neg (by omega)]

/-- Settles O27: resetting the reset state gives it back, so memory reads as O28 says. -/
theorem resetState : Obligations.ResetState := by
  obtain ⟨-, -, hlow, hhigh, -⟩ := resetPortIsTotal State.reset
  refine ⟨hlow, hhigh, fun z => ?_, rfl, rfl, fun k hk => ?_, rfl, rfl, rfl, Framebuffer.blank_cell, rfl, rfl⟩
  · simp [State.reg_eq, State.reset]
  · simp [State.reset]

/-! ### Load -/

theorem loadPort_of_closed {s : State} (h : s.loadOpen = false) (rom : List Byte) :
    s.loadPort rom = .refused .loadNotPristine := by
  simp [State.loadPort, h]

/-- A ROM cut to its capacity ends at the end of memory. -/
theorem rom_fits (rom : List Byte) : 0x200 + (rom.take 3584).length ≤ 4096 := by
  rw [List.length_take]
  omega

/-- Settles O29: the cut ROM is stored at 0x200 and the phase is closed; a step closes it too. -/
theorem loadPlacesTheRomOnce : Obligations.LoadPlacesTheRomOnce := by
  refine ⟨fun s rom hopen hm => ?_, fun s t rom hst => loadPort_of_closed (stepEnv_of_step hst).loadOpen rom⟩
  refine ⟨_, loadPort_eq_next_iff.mpr ⟨hopen, rfl⟩, fun k hk hk' => ?_, fun b hb => ?_, fun p hp => ?_,
    fun again => loadPort_of_closed rfl again⟩
  · have hlen : k < (rom.take 3584).length := by rw [List.length_take]; omega
    rw [State.closeLoad_byte, State.byte_putBytes_same (rom_fits rom) hm k hlen, List.getElem_take]
  · rw [State.closeLoad_byte, State.byte_putBytes_other]
    rw [List.length_take]
    omega
  · cases p <;> simp_all [Part.same]

/-! ### The driver's moves -/

/-- The invariant does not speak of the inputs to come. -/
theorem inv_withInputs {s : State} (h : s.Inv) (l : List Inputs) : ({ s with inputs := l } : State).Inv where
  memory := h.memory
  pcBound := h.pcBound
  stackBound := h.stackBound
  latch := h.latch
  loadPhase hopen := by
    have hs : s = { State.reset with
        addiThreshold := s.addiThreshold, font := s.font, inputs := s.inputs, draws := s.draws, loadOpen := s.loadOpen } :=
      h.loadPhase hopen
    exact congrArg (fun t : State => { t with inputs := l }) hs

theorem loadPort_keeps_inv {s t : State} {rom : List Byte} (h : s.Inv) (hl : s.loadPort rom = .next t) : t.Inv := by
  obtain ⟨-, rfl⟩ := loadPort_eq_next_iff.mp hl
  exact ⟨State.putBytes_memWf (rom_fits rom) h.memory, h.pcBound, h.stackBound, h.latch, fun hopen => by cases hopen⟩

/-- Settles O26: reset gives a pristine state, load a store inside memory, and the step is O24's. -/
theorem driverMovesKeepInvariant : Obligations.DriverMovesKeepInvariant := by
  intro m s t hi h
  cases m with
  | reset => cases h; exact resetPort_inv s
  | load rom => exact loadPort_keeps_inv hi h
  | step keys rnd => exact stepKeepsInvariant _ t (inv_withInputs hi _) h

end Sys2Proof.Proofs
end

section
/-! Call and return together, and jump-with-offset (41_control_flow.md R140, R142, R148). -/

namespace Sys2Proof.Proofs

open Sys2Proof Sys2Proof.Machine

/-- Settles O34: the call pushed `pc + 2` at the old `sp` (O33), and the return takes what lies there (O31). -/
theorem callThenReturnRoundTrips : Obligations.CallThenReturnRoundTrips := by
  intro s t u nnn hsp ht husp hustack
  obtain ⟨-, hcall⟩ := callPushesTheReturnAddress s nnn
  obtain ⟨t', ht', htsp, hentry, -⟩ := hcall hsp
  cases ht.symm.trans ht'
  have hu : u.sp.val = s.sp.val + 1 := (congrArg Fin.val husp).trans htsp
  obtain ⟨-, hret⟩ := returnPopsTheStack u
  obtain ⟨v, hv, hvsp, hvpc, -⟩ := hret (by omega)
  refine ⟨v, hv, ?_, Fin.ext (by omega)⟩
  simp only [hvpc, hustack, hu, Nat.add_sub_cancel, hentry]

/-- Settles O37: the 16-bit sum is exact. -/
theorem jumpOffsetIsAbsolute : Obligations.JumpOffsetIsAbsolute := fun s nnn =>
  ⟨_, rfl, jumpOffset_target_toNat nnn (s.reg 0), exec_onlyChanges (i := .jumpOffset nnn) rfl rfl⟩

end Sys2Proof.Proofs
end

section
/-! The register instructions that write the flag (42_alu.md R166 to R170), add-to-index (43_index_memory.md R181), and
random-masked (42_alu.md R171). The flag is written last (R30), so `V[15]` holds it even where `X` = 15. -/

namespace Sys2Proof.Proofs

open Sys2Proof Sys2Proof.Machine

/-! ### Result and flag -/

/-- An instruction that writes `b` to `V[X]`, then `f` to `V[15]`, and advances. What is wanted of the new `V[X]`, where `X` is
not 15, is any `p` that `b` has, and of the new `V[15]` any `q` that the flag has. -/
theorem exec_writeResult {i : Instr} {s : State} {x : Reg} {b : Byte} {f : Bool} (p q : Byte → Prop)
    (h : exec i s = .next (s.writeResult x b f)) (hb : p b) (hf : q (flagByte f)) :
    ∃ t, exec i s = .next t ∧ (x ≠ 15 → p (t.reg x)) ∧ q (t.reg 15) ∧ t.pc = s.pc + 2 ∧ OtherRegsSame [x, 15] s t ∧
      OnlyChanges i.touches s t := by
  refine ⟨_, h, fun hx => ?_, ?_, rfl, otherRegsSame_writeResult s x b f, exec_onlyChanges h rfl⟩
  · rwa [State.writeResult_reg, if_neg (show x ≠ flagReg from hx), if_pos rfl]
  · rwa [State.writeResult_reg, if_pos (show (15 : Reg) = flagReg from rfl)]

theorem flagByte_decide (p : Prop) [Decidable p] : flagByte (decide p) = if p then 1 else 0 := by
  by_cases h : p <;> simp [flagByte, h]

/-- Settles O40: the sum is taken modulo 256, and the carry is the exact sum's. -/
theorem addSetsCarry : Obligations.AddSetsCarry := fun s x y =>
  exec_writeResult (i := .addReg x y) (·.toNat = ((s.reg x).toNat + (s.reg y).toNat) % 256)
    (· = if 255 < (s.reg x).toNat + (s.reg y).toNat then 1 else 0) rfl (BitVec.toNat_add ..) (flagByte_decide _)

theorem byte_sub_toNat (a b : Byte) : (a - b).toNat = (a.toNat + 256 - b.toNat) % 256 := by
  have hb : b.toNat < 256 := b.isLt
  rw [BitVec.toNat_sub, show 2 ^ 8 = 256 from rfl]
  congr 1
  omega

/-- Settles O41: both are differences, with the operands in either order. -/
theorem subtractionsSetStrictFlag : Obligations.SubtractionsSetStrictFlag := by
  intro s x y
  constructor
  · exact exec_writeResult (i := .subReg x y) (·.toNat = ((s.reg x).toNat + 256 - (s.reg y).toNat) % 256)
      (· = if (s.reg y).toNat < (s.reg x).toNat then 1 else 0) rfl (byte_sub_toNat ..) (flagByte_decide _)
  · exact exec_writeResult (i := .subReverse x y) (·.toNat = ((s.reg y).toNat + 256 - (s.reg x).toNat) % 256)
      (· = if (s.reg x).toNat < (s.reg y).toNat then 1 else 0) rfl (byte_sub_toNat ..) (flagByte_decide _)

theorem flagByte_toNat (f : Bool) : (flagByte f).toNat = f.toNat := by cases f <;> rfl

theorem lowBitFlag_toNat (b : Byte) : (lowBitFlag b).toNat = b.toNat % 2 := by
  rw [lowBitFlag, BitVec.getLsbD, Nat.toNat_testBit, Nat.pow_zero, Nat.div_one]

theorem highBitFlag_toNat (b : Byte) : (highBitFlag b).toNat = b.toNat / 128 := by
  have hb : b.toNat < 256 := b.isLt
  rw [highBitFlag, BitVec.getLsbD, Nat.toNat_testBit]
  omega

/-- Settles O42: a shift by one bit divides by 2 or doubles modulo 256, and the bit shifted out is bit 0 or bit 7. -/
theorem shiftsMoveTheBitToTheFlag : Obligations.ShiftsMoveTheBitToTheFlag := by
  intro s x y
  constructor
  · exact exec_writeResult (i := .shiftRight x y) (·.toNat = (s.reg x).toNat / 2) (·.toNat = (s.reg x).toNat % 2) rfl
      (by rw [BitVec.toNat_ushiftRight, Nat.shiftRight_one]) ((flagByte_toNat _).trans (lowBitFlag_toNat _))
  · exact exec_writeResult (i := .shiftLeft x y) (·.toNat = (s.reg x).toNat * 2 % 256) (·.toNat = (s.reg x).toNat / 128) rfl
      (by rw [BitVec.toNat_shiftLeft, Nat.shiftLeft_eq]) ((flagByte_toNat _).trans (highBitFlag_toNat _))

/-! ### add-to-index -/

/-- Settles O45: the sum is tested before it is written, so it fits the index register, or the 17 bits of the record. -/
theorem addToIndexIsExact : Obligations.AddToIndexIsExact := by
  intro s x
  have hi : s.i.toNat < 65536 := s.i.isLt
  have hx : (s.reg x).toNat < 256 := (s.reg x).isLt
  constructor
  · intro hsum
    have h := exec_addToIndex_eq s x
    rw [if_neg (by omega)] at h
    refine ⟨_, h, Nat.mod_eq_of_lt (by omega), ?_, rfl, fun z hz => ?_, exec_onlyChanges h rfl⟩
    · rw [State.advance_reg, State.setFlag_reg, if_pos (show (15 : Reg) = flagReg from rfl), indexFlag, flagByte_decide]
    · have hz : z ≠ flagReg := List.ne_of_not_mem_cons hz
      rw [State.advance_reg, State.setFlag_reg, if_neg hz, State.setIndex_reg]
  · intro hsum
    have h := exec_addToIndex_eq s x
    rw [if_pos hsum] at h
    exact ⟨_, _, h, rfl, rfl, rfl, Nat.mod_eq_of_lt (by omega), takeFault_onlyChanges s _⟩

/-! ### random-masked -/

/-- Settles O43: `V[X]` receives the masked byte of the step's input. -/
theorem randomIsMasked : Obligations.RandomIsMasked := by
  intro s x kk
  refine ⟨exec_writeReg (i := .randomMasked x kk) (· = kk &&& s.input.rnd) rfl rfl, fun k r l h => ?_⟩
  rw [State.input_cons h]

end Sys2Proof.Proofs
end

section
/-! Keys and timers (45_timers_keys.md R200 to R205). -/

namespace Sys2Proof.Proofs

open Sys2Proof Sys2Proof.Machine

/-! ### The key skips -/

/-- Settles O54: a register value up to 15 is a key number, and a greater one is recorded in full. -/
theorem keySkipsReadTheKeypad : Obligations.KeySkipsReadTheKeypad := by
  intro s x
  have hp := exec_skipKeyPressed_eq s x
  have hn := exec_skipKeyNotPressed_eq s x
  constructor
  · intro hx
    rw [if_neg (by omega)] at hp hn
    refine ⟨⟨_, hp, rfl, exec_onlyChanges hp rfl⟩, ⟨_, hn, ?_, exec_onlyChanges hn rfl⟩⟩
    rw [State.skipIf_pc, State.keyHeld]
    cases s.input.keys.getLsbD (s.reg x).toNat <;> rfl
  · intro hx
    rw [if_pos hx] at hp hn
    exact ⟨_, _, hp, hn, rfl, rfl, rfl, BitVec.toNat_setWidth_of_le (by decide), takeFault_onlyChanges s _⟩

/-! ### wait-for-key -/

/-- A held key below which none is held is the one found. -/
theorem keyOrKept_of_lowest {s : State} {k : Nat} (x : Reg) (hk : k < 16) (hheld : s.input.keys.getLsbD k = true)
    (hleast : ∀ j < k, s.input.keys.getLsbD j = false) : s.keyOrKept x = BitVec.ofNat 8 k := by
  have hlow : s.lowestKey = some k := by
    rw [State.lowestKey, List.find?_range_eq_some]
    exact ⟨hheld, List.mem_range.mpr hk, fun j hj => by simp [State.keyHeld, hleast j hj]⟩
  rw [State.keyOrKept, hlow]

theorem keyOrKept_of_none {s : State} (x : Reg) (h : s.input.keys = 0) : s.keyOrKept x = s.reg x := by
  have hlow : s.lowestKey = none := by
    rw [State.lowestKey, List.find?_eq_none]
    intro k _
    simp [State.keyHeld, h]
  rw [State.keyOrKept, hlow]

/-- Settles O55: `V[X]` receives the key found, or its own value. -/
theorem waitForKeySamplesTheLowest : Obligations.WaitForKeySamplesTheLowest := by
  intro s x
  obtain ⟨t, ht, hreg, hframe⟩ := exec_writeReg (i := .waitForKey x) (s := s) (· = s.keyOrKept x) rfl rfl
  refine ⟨t, ht, fun k hk hheld hleast => ?_, fun hnone => ?_, hframe⟩
  · rw [hreg, keyOrKept_of_lowest x hk hheld hleast]
    exact Nat.mod_eq_of_lt (by omega)
  · rw [hreg, keyOrKept_of_none x hnone]

/-! ### The timers -/

theorem tickTimer_toNat (b : Byte) : (tickTimer b).toNat = b.toNat - 1 := by
  unfold tickTimer
  split <;> bv_omega

/-- Settles O56: the register is written before the tick, and the tick leaves it alone. -/
theorem readDelayTimerBeforeTick : Obligations.ReadDelayTimerBeforeTick := by
  intro s x
  obtain ⟨t, ht, hreg, hpc, hother, honly⟩ := exec_writeReg (i := .readDelayTimer x) (s := s) (· = s.dt) rfl rfl
  refine ⟨t, ht, hreg, hpc, hother, honly, fun hf => ⟨(State.endStep_reg t x).trans hreg, ?_⟩⟩
  have htf : t.fault = none := (honly.rest .fault (fault_not_mem_touches _)).trans hf
  have htd : t.dt = s.dt := honly.rest .dt (by simp [Instr.touches])
  rw [endStep_dt_of_ok htf, htd, tickTimer]

/-- Settles O57: the tick takes one off what the instruction wrote. -/
theorem setTimersThenTick : Obligations.SetTimersThenTick := by
  intro s x
  constructor
  · refine ⟨_, rfl, rfl, rfl, exec_onlyChanges (i := .setDelayTimer x) rfl rfl, fun hf => ?_⟩
    rw [endStep_dt_of_ok (t := (s.setDelay (s.reg x)).advance) hf, tickTimer_toNat]
    rfl
  · refine ⟨_, rfl, rfl, rfl, exec_onlyChanges (i := .setSoundTimer x) rfl rfl, fun hf => ?_⟩
    rw [endStep_st_of_ok (t := (s.setSound (s.reg x)).advance) hf, tickTimer_toNat]
    rfl

end Sys2Proof.Proofs
end

section
/-! Stores seen by what comes after them: a register-load from the same place (43_index_memory.md R186) and the very next
fetch (20_memory.md R76). -/

namespace Sys2Proof.Proofs

open Sys2Proof Sys2Proof.Machine

/-- Settles O49: the load (O48) reads the bytes that the dump (O47) stored, and writes no byte. -/
theorem dumpThenLoadRoundTrips : Obligations.DumpThenLoadRoundTrips := by
  intro s t u x hm hr ht hui hbyte
  obtain ⟨hdump, -⟩ := registerDumpStoresTheRange s x
  obtain ⟨t', ht', hstored, -, -, hdumps⟩ := hdump hm hr
  cases ht.symm.trans ht'
  have hi : u.i = s.i := hui.trans (hdumps.rest .i (by decide))
  obtain ⟨hload, -⟩ := registerLoadReadsTheRange u x
  obtain ⟨v, hv, hread, -, -, hloads⟩ := hload (by rwa [hi])
  refine ⟨v, hv, fun z hz => ?_, fun a => (hloads.rest .mem (by decide) a).trans (hbyte a)⟩
  rw [hread z hz, State.dataAddress, hi, hbyte]
  exact hstored z hz

/-- Settles O50: `pc` moves to `I`, where the dump put `V[0]` and `V[1]`. -/
theorem storeBecomesNextInstruction : Obligations.StoreBecomesNextInstruction := by
  intro s t x hinv hr hx hi hrange hst
  obtain ⟨hdump, -⟩ := registerDumpStoresTheRange s.beginStep x
  obtain ⟨u, hu, hstored, -, hpc, honly⟩ := hdump hinv.memory hrange
  rw [step_of_runs hr, hu, finish] at hst
  cases hst
  have hpc : u.endStep.pc = s.i := by rw [State.endStep_pc, hpc, hi, State.beginStep_pc]
  have hfault : u.endStep.fault = none := by
    rw [State.endStep_fault]
    exact (honly.rest .fault (by decide)).trans hr.1
  have hbyte0 : u.byte s.i.toNat = s.reg 0 := hstored 0 (Nat.zero_le _)
  have hbyte1 : u.byte (s.i.toNat + 1) = s.reg 1 := hstored 1 hx
  have hword : u.endStep.wordAtPc = wordOfBytes (s.reg 0) (s.reg 1) := by
    rw [State.wordAtPc, hpc, State.endStep_byte, State.endStep_byte, hbyte0, hbyte1]
  exact ⟨hword, fun i hd => ⟨hfault, by rw [hpc]; omega, by rw [hword, hd]⟩⟩

end Sys2Proof.Proofs
end

section
/-! draw-sprite (44_display.md R191). `Framebuffer.draw_spec` gives the cells flipped and the hit; the cells under the sprite
depend on `I`, the bytes from there on and the coordinates only. -/

namespace Sys2Proof.Proofs

open Sys2Proof Sys2Proof.Machine

/-! ### One draw -/

/-- The range of the rows as the statement has it and as `exec_drawSprite_eq` has it. -/
theorem sprite_inRange_iff (s : State) (n : Nibble) :
    n = 0 ∨ s.i.toNat + n.toNat - 1 ≤ 4095 ↔ n.toNat = 0 ∨ s.i.toNat + n.toNat ≤ 4096 := by
  have hn : n = 0 ↔ n.toNat = 0 := by rw [← BitVec.toNat_inj]; rfl
  rw [hn]
  omega

/-- What drawing the rows at `I` does, in the terms of the specification's loop. -/
theorem draw_bytes_spec (s : State) (vx vy : Byte) (n : Nibble) :
    (∀ py px, (s.fb.draw vx vy (s.bytes s.i.toNat n.toNat)).1.cell py px =
      (s.fb.cell py px ^^ decide ((py, px) ∈ spriteCells vx vy 0 (s.bytes s.i.toNat n.toNat)))) ∧
    ((s.fb.draw vx vy (s.bytes s.i.toNat n.toNat)).2 = true ↔
      ∃ py px, s.SpriteCovers vx vy n.toNat py px ∧ s.fb.cell py px = true) := by
  have hlen : (s.bytes s.i.toNat n.toNat).length ≤ 32 := by rw [State.bytes_length]; omega
  obtain ⟨hcells, hhit⟩ := s.fb.draw_spec vx vy hlen
  refine ⟨hcells, hhit.trans ?_⟩
  simp only [mem_spriteCells_iff_covers]

/-- Settles O52: the two branches of `exec_drawSprite_eq`; the flag, written after the framebuffer, is the hit. -/
theorem drawSpriteXorsTheCells : Obligations.DrawSpriteXorsTheCells := by
  intro s x y n
  have h := exec_drawSprite_eq s x y n
  constructor
  · intro hr
    rw [if_pos ((sprite_inRange_iff s n).mp hr)] at h
    obtain ⟨hcells, hhit⟩ := draw_bytes_spec s (s.reg x) (s.reg y) n
    refine ⟨_, h, fun py px => ⟨fun hc => ?_, fun hc => ?_⟩, fun hex => ?_, fun hno => ?_, rfl, rfl, fun z hz => ?_,
      exec_onlyChanges h rfl⟩
    · rw [State.advance_fb, State.setChanged_fb, State.setFlag_fb, State.setFb_fb, hcells,
        decide_eq_true ((mem_spriteCells_iff_covers ..).mpr hc), Bool.xor_true]
    · rw [State.advance_fb, State.setChanged_fb, State.setFlag_fb, State.setFb_fb, hcells,
        decide_eq_false (mt (mem_spriteCells_iff_covers ..).mp hc), Bool.xor_false]
    · simp [hhit.mpr hex, flagReg, flagByte]
    · simp [Bool.eq_false_iff.mpr (mt hhit.mp hno), flagReg, flagByte]
    · have hz : z ≠ flagReg := List.ne_of_not_mem_cons hz
      simp [hz]
  · intro hr
    have hout : ¬ (n.toNat = 0 ∨ s.i.toNat + n.toNat ≤ 4096) := by
      rw [← sprite_inRange_iff]
      exact not_or.mpr ⟨hr.1, by omega⟩
    rw [if_neg hout] at h
    exact ⟨_, _, h, rfl, rfl, rfl, lowestBadAddress_toNat s.i.isLt, takeFault_onlyChanges s _⟩

/-! ### Two draws -/

theorem spriteCovers_congr {s u : State} (hi : u.i = s.i) (hb : ∀ a, u.byte a = s.byte a) (vx vy : Byte) (n : Nat)
    (py : Fin 32) (px : Fin 64) : u.SpriteCovers vx vy n py px ↔ s.SpriteCovers vx vy n py px := by
  simp only [State.SpriteCovers, State.dataAddress, hi, hb]

/-- Settles O53: both draws flip the same cells, so the second flips each one back and finds a 1 where the first found a 0. -/
theorem drawTwiceRestores : Obligations.DrawTwiceRestores := by
  intro s t u x y x' y' n hr ht hfb hi hb hx hy
  obtain ⟨hfirst, -⟩ := drawSpriteXorsTheCells s x y n
  obtain ⟨hsecond, -⟩ := drawSpriteXorsTheCells u x' y' n
  obtain ⟨t', ht', htcell, -, -, htchanged, -⟩ := hfirst hr
  cases ht.symm.trans ht'
  obtain ⟨v, hv, hvcell, hvhit, hvmiss, hvchanged, -⟩ := hsecond (by rwa [hi])
  simp only [hx, hy, hfb, spriteCovers_congr hi hb] at hvcell hvhit hvmiss
  have hflipped : ∀ py px, s.SpriteCovers (s.reg x) (s.reg y) n.toNat py px →
      (t.fb.cell py px = true ↔ s.fb.cell py px = false) := by
    intro py px hc
    rw [(htcell py px).1 hc, Bool.not_eq_true']
  have hhit : (∃ py px, s.SpriteCovers (s.reg x) (s.reg y) n.toNat py px ∧ t.fb.cell py px = true) ↔
      ∃ py px, s.SpriteCovers (s.reg x) (s.reg y) n.toNat py px ∧ s.fb.cell py px = false :=
    exists_congr fun py => exists_congr fun px => and_congr_right (hflipped py px)
  rw [hhit] at hvhit hvmiss
  refine ⟨v, hv, Framebuffer.ext_cell fun py px => ?_, htchanged, hvchanged, fun hv15 => ?_, hvhit⟩
  · by_cases hc : s.SpriteCovers (s.reg x) (s.reg y) n.toNat py px
    · rw [(hvcell py px).1 hc, (htcell py px).1 hc, Bool.not_not]
    · rw [(hvcell py px).2 hc, (htcell py px).2 hc]
  · by_contra hno
    exact absurd (hv15.symm.trans (hvmiss hno)) (by decide)

end Sys2Proof.Proofs
end

section
/-! The inputs of a step (60_exceptions.md R228, R229): an instruction that does not read an input does the same whatever it
is, and the inputs it leaves are those it found. -/

namespace Sys2Proof.Proofs

open Sys2Proof Sys2Proof.Machine

/-- The state with other inputs to come. -/
def withInputs (s : State) (l : List Inputs) : State := { s with inputs := l }

theorem setRegs_withInputs : ∀ (bs : List Byte) (s : State) (k : Nat) (l : List Inputs),
    (withInputs s l).setRegs k bs = withInputs (s.setRegs k bs) l
  | [], _, _, _ => rfl
  | b :: bs, s, k, l => setRegs_withInputs bs (s.setReg (BitVec.ofNat 4 k) b) (k + 1) l

theorem keyHeld_withInputs {s : State} {l : List Inputs} (h : (withInputs s l).input.keys = s.input.keys) (k : Nat) :
    (withInputs s l).keyHeld k = s.keyHeld k := by
  rw [State.keyHeld, State.keyHeld, h]

theorem keyOrKept_withInputs {s : State} {l : List Inputs} (h : (withInputs s l).input.keys = s.input.keys) (x : Reg) :
    (withInputs s l).keyOrKept x = s.keyOrKept x := by
  have hlow : (withInputs s l).lowestKey = s.lowestKey := by
    simp only [State.lowestKey, keyHeld_withInputs h]
  rw [State.keyOrKept, State.keyOrKept, hlow]
  rfl

/-- An instruction sees the inputs to come only through the step's input: its keys, in the three families that read them, and
its random byte, in the one that reads it. -/
theorem exec_withInputs {i : Instr} {s t : State} {l : List Inputs}
    (hkeys : (withInputs s l).input.keys = s.input.keys ∨ ¬ i.readsKeys)
    (hrnd : (withInputs s l).input.rnd = s.input.rnd ∨ ¬ i.readsRnd) (h : exec i s = .next t) :
    exec i (withInputs s l) = .next (withInputs t l) := by
  cases i
  case skipKeyPressed x =>
    have hkeys := hkeys.resolve_right (not_not_intro (.inl ⟨x, rfl⟩))
    rw [exec_skipKeyPressed_eq] at h ⊢; cases h
    rw [keyHeld_withInputs hkeys, apply_ite (withInputs · l)]
    rfl
  case skipKeyNotPressed x =>
    have hkeys := hkeys.resolve_right (not_not_intro (.inr (.inl ⟨x, rfl⟩)))
    rw [exec_skipKeyNotPressed_eq] at h ⊢; cases h
    rw [keyHeld_withInputs hkeys, apply_ite (withInputs · l)]
    rfl
  case waitForKey x =>
    have hkeys := hkeys.resolve_right (not_not_intro (.inr (.inr ⟨x, rfl⟩)))
    cases h
    rw [exec, execWaitForKey, keyOrKept_withInputs hkeys]
    rfl
  case randomMasked x kk =>
    have hrnd := hrnd.resolve_right (not_not_intro ⟨x, kk, rfl⟩)
    cases h
    rw [exec, execRandomMasked, State.randomByte, hrnd]
    rfl
  case ret =>
    by_cases hz : s.sp.val = 0
    · rw [exec_ret_of_zero hz] at h; cases h
      exact exec_ret_of_zero (s := withInputs s l) hz
    · rw [exec_ret_of_pos (by omega)] at h; cases h
      exact exec_ret_of_pos (s := withInputs s l) (Nat.pos_of_ne_zero hz)
  case call nnn =>
    by_cases hz : s.sp.val < 16
    · rw [exec_call_of_lt nnn hz] at h; cases h
      exact exec_call_of_lt (s := withInputs s l) nnn hz
    · have hfull : s.sp.val = 16 := by omega
      rw [exec_call_of_full nnn hfull] at h; cases h
      exact exec_call_of_full (s := withInputs s l) nnn hfull
  case drawSprite x y n => rw [exec_drawSprite_eq] at h ⊢; cases h; rw [apply_ite (withInputs · l)]; rfl
  case storeBcd x => rw [exec_storeBcd_eq] at h ⊢; cases h; rw [apply_ite (withInputs · l)]; rfl
  case regDump x => rw [exec_regDump_eq] at h ⊢; cases h; rw [apply_ite (withInputs · l)]; rfl
  case addToIndex x => rw [exec_addToIndex_eq] at h ⊢; cases h; rw [apply_ite (withInputs · l)]; rfl
  case regLoad x =>
    rw [exec_regLoad_eq] at h ⊢; cases h
    rw [setRegs_withInputs, apply_ite (withInputs · l)]
    rfl
  all_goals cases h; rfl

/-- Settles O22: the two schedules present the same keys, or no key is read; and the same for the random byte. -/
theorem inputsReachOnlyTheirReaders : Obligations.InputsReachOnlyTheirReaders := by
  intro i s t k k' r r' l hk hr h
  exact ⟨(envSame_of_exec h).inputs, exec_withInputs (s := withInputs s (⟨k, r⟩ :: l)) (l := ⟨k', r'⟩ :: l)
    (hk.imp_left Eq.symm) (hr.imp_left Eq.symm) h⟩

end Sys2Proof.Proofs
end
